-- ==== Sys2Proof/Word.lean ====
section
/-! DEFINITION. The widths of the block (spec 00_scope.md R6, R7): an 8-bit byte, a 24-bit command word and a 24-bit bus.
Bit 0 is the least significant bit of each (R7). -/

namespace Sys2Proof

/-- A byte of the Command Buffer, or a mask over one (R6 `BYTE_W`). -/
abbrev Byte := BitVec 8

/-- A command word as presented on `cmd[23:0]` (R6 `CW_W`, R48). -/
abbrev CmdWord := BitVec 24

/-- A 24-bit bus that carries three bytes: `q` and `tx_data` (R24, R25). -/
abbrev Bus := BitVec 24

end Sys2Proof
end

