-- ==== Sys2Proof/Syntax.lean ====
section
/-! DEFINITION. The command set: one constructor of `Instr` per row of spec/opcode_table.json (spec 30_encoding.md R55),
and the names of the bytes, segments and actions a command speaks of (10_state.md R13, R17; 30_encoding.md R51). -/

namespace Sys2Proof

/-- The three locations of the Command Buffer (10_state.md R13, 20_memory.md R31). Index 3 names no location (R36). -/
inductive ByteIndex where
  | byte0  -- hand, wrist, elbow, shoulder
  | byte1  -- base
  | byte2  -- LED
  deriving DecidableEq, Repr

/-- The six segments in the order of their selector `SEG` (10_state.md R17). -/
inductive Segment where
  | hand
  | wrist
  | elbow
  | shoulder
  | base
  | led
  deriving DecidableEq, Repr

/-- The three actions of a named command in the order of `ACT` (30_encoding.md R51). -/
inductive Action where
  | stop    -- 0: the field is cleared (LED: off)
  | valueA  -- 1: direction A
  | valueB  -- 2: direction B
  deriving DecidableEq, Repr

/-- A command (30_encoding.md R55). Operands of format R stand as they do in the word (R53): `bi` may be 3 here, which
`Instr.wf` refuses. -/
inductive Instr where
  /-- R63: clear the bits of byte `bi` that `sm` covers. -/
  | clrf (bi : BitVec 2) (sm : Byte)
  /-- R64: set the bits of byte `bi` that `vm` covers. -/
  | setf (bi : BitVec 2) (vm : Byte)
  /-- R65: clear, then set, as one command. -/
  | apply (bi : BitVec 2) (sm vm : Byte)
  /-- R66: return a field to neutral. -/
  | stopf (bi : BitVec 2) (sm : Byte)
  /-- R67: clear the whole buffer. -/
  | stopAll
  | handStop       -- R71
  | handOpen       -- R72
  | handClose      -- R73
  | wristStop      -- R74
  | wristUp        -- R75
  | wristDown      -- R76
  | elbowStop      -- R77
  | elbowUp        -- R78
  | elbowDown      -- R79
  | shoulderStop   -- R80
  | shoulderUp     -- R81
  | shoulderDown   -- R82
  | baseStop       -- R83
  | baseCw         -- R84
  | baseCcw        -- R85
  | ledOff         -- R89
  | ledOn          -- R88
  deriving DecidableEq, Repr

/-- The named command of an action on a segment (30_encoding.md R51, R55). The LED has no value B (R58). -/
def namedInstr : Action → Segment → Option Instr
  | .stop,   .hand     => some .handStop
  | .valueA, .hand     => some .handOpen
  | .valueB, .hand     => some .handClose
  | .stop,   .wrist    => some .wristStop
  | .valueA, .wrist    => some .wristUp
  | .valueB, .wrist    => some .wristDown
  | .stop,   .elbow    => some .elbowStop
  | .valueA, .elbow    => some .elbowUp
  | .valueB, .elbow    => some .elbowDown
  | .stop,   .shoulder => some .shoulderStop
  | .valueA, .shoulder => some .shoulderUp
  | .valueB, .shoulder => some .shoulderDown
  | .stop,   .base     => some .baseStop
  | .valueA, .base     => some .baseCw
  | .valueB, .base     => some .baseCcw
  | .stop,   .led      => some .ledOff
  | .valueA, .led      => some .ledOn
  | .valueB, .led      => none

end Sys2Proof
end

