-- ==== Sys2Proof/Config.lean ====
section
/-! DEFINITION. What the spec leaves to a parameter (spec 00_scope.md R6, 93_implementation_defined.md U4) and the free values:
constants with no body, so that no proof can know one. The plain types they speak of stand here too. -/

namespace Sys2Proof

/-- Three bytes in index order: the Command Buffer, a frame, or the bytes the arm took (10_state.md R13, R26, R27). -/
structure Buffer where
  b0 : Byte
  b1 : Byte
  b2 : Byte
  deriving DecidableEq, Repr, Inhabited

/-- The transport's answer to a frame (20_memory.md R42). -/
inductive Answer where
  | ok   -- the source's `Ok(())`
  | err  -- the source's `TransportError`
  deriving DecidableEq, Repr, Inhabited

/-- One row of the Field Descriptor table (10_state.md R17). `vb = none` is the LED's "(no distinct off mask)". -/
structure Descriptor where
  bi : ByteIndex
  sm : Byte
  va : Byte
  vb : Option Byte
  deriving DecidableEq, Repr

/-- `NBYTES`, the number of buffer bytes (00_scope.md R6). -/
def Config.nBytes : Nat := 3

/-- `NFIELDS`, the number of fields (00_scope.md R6). -/
def Config.nFields : Nat := 6

/-- `RESET_VALUE` of the buffer (00_scope.md R6, 10_state.md R28). -/
def Config.resetValue : Buffer := ⟨0x00, 0x00, 0x00⟩

/-- `ADMIT_RAW`, the value the spec takes (00_scope.md R6, 30_encoding.md R61; log 12). -/
def Config.admitRaw : Bool := true

/-- FREE VALUE: the transport's answer number `k`, where the environment list of State does not give it
(00_scope.md R3, 92 D22; log 2). -/
opaque Config.freeAnswer : Nat → Answer

/-- FREE VALUE: the device image number `k`, wherever the spec leaves the image unspecified (10_state.md R27; log 4). -/
opaque Config.freeImage : Nat → Buffer

/-- OPEN parameter `TX_REQUEST_TYPE` (00_scope.md R6, 92 D11; log 16). -/
opaque Config.txRequestType : Nat
/-- OPEN parameter `TX_REQUEST` (00_scope.md R6, 92 D11; log 16). -/
opaque Config.txRequest : Nat
/-- OPEN parameter `TX_VALUE` (00_scope.md R6, 92 D11; log 16). -/
opaque Config.txValue : Nat
/-- OPEN parameter `TX_INDEX` (00_scope.md R6, 92 D11; log 16). -/
opaque Config.txIndex : Nat
/-- OPEN parameter `DEV_VENDOR_ID` (00_scope.md R6, 92 D11; log 16). -/
opaque Config.devVendorId : Nat
/-- OPEN parameter `DEV_PRODUCT_ID` (00_scope.md R6, 92 D11; log 16). -/
opaque Config.devProductId : Nat

end Sys2Proof
end

