-- ==== Sys2Proof/WellFormed.lean ====
section
/-! DEFINITION. Which commands an encoding admits. The one operand with an illegal value is the byte index of a raw
operation (spec 20_memory.md R36, 30_encoding.md R58): any 8-bit mask is legal (R53). -/

namespace Sys2Proof

/-- A byte index names a location of the buffer (20_memory.md R31, R36). -/
def biLegal (bi : BitVec 2) : Bool := bi != 3#2

/-- The command has an encoding (30_encoding.md R53, R58). -/
def Instr.wf : Instr → Bool
  | .clrf bi _ => biLegal bi
  | .setf bi _ => biLegal bi
  | .apply bi _ _ => biLegal bi
  | .stopf bi _ => biLegal bi
  | .stopAll => true
  | .handStop => true
  | .handOpen => true
  | .handClose => true
  | .wristStop => true
  | .wristUp => true
  | .wristDown => true
  | .elbowStop => true
  | .elbowUp => true
  | .elbowDown => true
  | .shoulderStop => true
  | .shoulderUp => true
  | .shoulderDown => true
  | .baseStop => true
  | .baseCw => true
  | .baseCcw => true
  | .ledOff => true
  | .ledOn => true

end Sys2Proof
end

