-- ==== Sys2Proof/Decode.lean ====
section
/-! DEFINITION. The command word (spec 30_encoding.md): `decode` is R59, total on all 2^24 words and rejecting by name;
`encode` writes the words of R55 from the formats R49 to R51; `opcodeTable` is spec/opcode_table.json. -/

namespace Sys2Proof

/-! ## The fields of a word (R48 to R51) -/

/-- `OP = cw[23:20]`. -/
def opField (cw : CmdWord) : BitVec 4 := cw.extractLsb' 20 4
/-- Format R, reserved `Z2 = cw[19:18]`. -/
def z2Field (cw : CmdWord) : BitVec 2 := cw.extractLsb' 18 2
/-- Format R, `BI = cw[17:16]`. -/
def biField (cw : CmdWord) : BitVec 2 := cw.extractLsb' 16 2
/-- Format R, `SM = cw[15:8]`. -/
def smField (cw : CmdWord) : Byte := cw.extractLsb' 8 8
/-- Format R, `VM = cw[7:0]`. -/
def vmField (cw : CmdWord) : Byte := cw.extractLsb' 0 8
/-- Format Z, reserved `cw[19:0]`. -/
def z20Field (cw : CmdWord) : BitVec 20 := cw.extractLsb' 0 20
/-- Format N, reserved `Z15 = cw[19:5]`. -/
def z15Field (cw : CmdWord) : BitVec 15 := cw.extractLsb' 5 15
/-- Format N, `ACT = cw[4:3]`. -/
def actField (cw : CmdWord) : BitVec 2 := cw.extractLsb' 3 2
/-- Format N, `SEG = cw[2:0]`. -/
def segField (cw : CmdWord) : BitVec 3 := cw.extractLsb' 0 3

/-! ## The selectors (R17, R51) -/

/-- `SEG` of a segment (10_state.md R17). -/
def Segment.bits : Segment → BitVec 3
  | .hand => 0#3
  | .wrist => 1#3
  | .elbow => 2#3
  | .shoulder => 3#3
  | .base => 4#3
  | .led => 5#3

/-- The segment of a `SEG`; 6 and 7 are reserved (R51, R58). -/
def Segment.ofBits (seg : BitVec 3) : Option Segment :=
  match seg.toNat with
  | 0 => some .hand
  | 1 => some .wrist
  | 2 => some .elbow
  | 3 => some .shoulder
  | 4 => some .base
  | 5 => some .led
  | _ => none

/-- `ACT` of an action (R51). -/
def Action.bits : Action → BitVec 2
  | .stop => 0#2
  | .valueA => 1#2
  | .valueB => 2#2

/-- The action of an `ACT`; 3 is reserved (R51, R58). -/
def Action.ofBits (act : BitVec 2) : Option Action :=
  match act.toNat with
  | 0 => some .stop
  | 1 => some .valueA
  | 2 => some .valueB
  | _ => none

/-! ## Decode (R59) -/

/-- Why a word is illegal (60_exceptions.md R94). The block's response does not say which cause held. -/
inductive Illegal where
  /-- R94 (a): `OP` in 0, 6, 7, 9..15 (R56). -/
  | reservedOpcode
  /-- R94 (b): a nonzero reserved bit (R57). -/
  | reservedBits
  /-- R94 (c): a nonzero unused operand field (R57). -/
  | unusedOperand
  /-- R94 (d): `BI = 3` (20_memory.md R36). -/
  | byteIndex
  /-- R94 (e): `SEG` 6 or 7 (R58). -/
  | segment
  /-- R94 (e): `ACT = 3` (R58). -/
  | action
  /-- R94 (e): `ACT = 2` with `SEG = 5`, the LED has no value B (R58). -/
  | ledValueB
  /-- R94 (f): a raw operation with `ADMIT_RAW = false` (R61). -/
  | rawNotAdmitted
  deriving DecidableEq, Repr

/-- Format R: the checks of R59 in their order; `unused` is the operand field the command does not have. -/
def decodeRaw (admitRaw : Bool) (cw : CmdWord) (unused : Byte) (i : Instr) : Except Illegal Instr :=
  if admitRaw = false then .error .rawNotAdmitted
  else if z2Field cw ≠ 0#2 then .error .reservedBits
  else if biField cw = 3#2 then .error .byteIndex
  else if unused ≠ 0#8 then .error .unusedOperand
  else .ok i

/-- Format Z (R50). -/
def decodeStopAll (cw : CmdWord) : Except Illegal Instr :=
  if z20Field cw ≠ 0#20 then .error .reservedBits else .ok .stopAll

/-- Format N (R51): `SEG`, then `ACT`, then the pair, in the order of R59. -/
def decodeNamed (cw : CmdWord) : Except Illegal Instr :=
  if z15Field cw ≠ 0#15 then .error .reservedBits
  else
    match Segment.ofBits (segField cw) with
    | none => .error .segment
    | some seg =>
      match Action.ofBits (actField cw) with
      | none => .error .action
      | some act =>
        match namedInstr act seg with
        | none => .error .ledValueB
        | some i => .ok i

/-- `Decode` (R59): the command a word selects, or the reason it is illegal. `admitRaw` is the parameter `ADMIT_RAW`
(R61). -/
def decode (admitRaw : Bool) (cw : CmdWord) : Except Illegal Instr :=
  match (opField cw).toNat with
  | 1 => decodeRaw admitRaw cw (vmField cw) (.clrf (biField cw) (smField cw))
  | 2 => decodeRaw admitRaw cw (smField cw) (.setf (biField cw) (vmField cw))
  | 3 => decodeRaw admitRaw cw 0#8 (.apply (biField cw) (smField cw) (vmField cw))
  | 4 => decodeRaw admitRaw cw (vmField cw) (.stopf (biField cw) (smField cw))
  | 5 => decodeStopAll cw
  | 8 => decodeNamed cw
  | _ => .error .reservedOpcode

/-! ## Encode (R49 to R51, R55) -/

/-- `OOOO 00BB SSSSSSSS VVVVVVVV` (R49). -/
def formatR (op : BitVec 4) (bi : BitVec 2) (sm vm : Byte) : CmdWord := op ++ 0#2 ++ bi ++ sm ++ vm

/-- `1000 0000 00000000 000AASSS` (R51). -/
def formatN (act : Action) (seg : Segment) : CmdWord := 8#4 ++ 0#15 ++ act.bits ++ seg.bits

/-- The word of a command (R55). -/
def encode : Instr → CmdWord
  | .clrf bi sm => formatR 1#4 bi sm 0#8
  | .setf bi vm => formatR 2#4 bi 0#8 vm
  | .apply bi sm vm => formatR 3#4 bi sm vm
  | .stopf bi sm => formatR 4#4 bi sm 0#8
  | .stopAll => 5#4 ++ 0#20
  | .handStop => formatN .stop .hand
  | .handOpen => formatN .valueA .hand
  | .handClose => formatN .valueB .hand
  | .wristStop => formatN .stop .wrist
  | .wristUp => formatN .valueA .wrist
  | .wristDown => formatN .valueB .wrist
  | .elbowStop => formatN .stop .elbow
  | .elbowUp => formatN .valueA .elbow
  | .elbowDown => formatN .valueB .elbow
  | .shoulderStop => formatN .stop .shoulder
  | .shoulderUp => formatN .valueA .shoulder
  | .shoulderDown => formatN .valueB .shoulder
  | .baseStop => formatN .stop .base
  | .baseCw => formatN .valueA .base
  | .baseCcw => formatN .valueB .base
  | .ledOff => formatN .stop .led
  | .ledOn => formatN .valueA .led

/-! ## The opcode table (spec/opcode_table.json) -/

/-- A row of the table: the words with `cw &&& mask = pattern` are the row's. -/
structure OpcodeRow where
  mnemonic : String
  pattern : CmdWord
  mask : CmdWord
  deriving DecidableEq, Repr

/-- The table's row of a command. -/
def Instr.row : Instr → OpcodeRow
  | .clrf _ _ => ⟨"CLRF", 0x100000, 0xFC00FF⟩
  | .setf _ _ => ⟨"SETF", 0x200000, 0xFCFF00⟩
  | .apply _ _ _ => ⟨"APPLY", 0x300000, 0xFC0000⟩
  | .stopf _ _ => ⟨"STOPF", 0x400000, 0xFC00FF⟩
  | .stopAll => ⟨"STOPALL", 0x500000, 0xFFFFFF⟩
  | .handStop => ⟨"HAND_STOP", 0x800000, 0xFFFFFF⟩
  | .handOpen => ⟨"HAND_OPEN", 0x800008, 0xFFFFFF⟩
  | .handClose => ⟨"HAND_CLOSE", 0x800010, 0xFFFFFF⟩
  | .wristStop => ⟨"WRIST_STOP", 0x800001, 0xFFFFFF⟩
  | .wristUp => ⟨"WRIST_UP", 0x800009, 0xFFFFFF⟩
  | .wristDown => ⟨"WRIST_DOWN", 0x800011, 0xFFFFFF⟩
  | .elbowStop => ⟨"ELBOW_STOP", 0x800002, 0xFFFFFF⟩
  | .elbowUp => ⟨"ELBOW_UP", 0x80000A, 0xFFFFFF⟩
  | .elbowDown => ⟨"ELBOW_DOWN", 0x800012, 0xFFFFFF⟩
  | .shoulderStop => ⟨"SHOULDER_STOP", 0x800003, 0xFFFFFF⟩
  | .shoulderUp => ⟨"SHOULDER_UP", 0x80000B, 0xFFFFFF⟩
  | .shoulderDown => ⟨"SHOULDER_DOWN", 0x800013, 0xFFFFFF⟩
  | .baseStop => ⟨"BASE_STOP", 0x800004, 0xFFFFFF⟩
  | .baseCw => ⟨"BASE_CW", 0x80000C, 0xFFFFFF⟩
  | .baseCcw => ⟨"BASE_CCW", 0x800014, 0xFFFFFF⟩
  | .ledOff => ⟨"LED_OFF", 0x800005, 0xFFFFFF⟩
  | .ledOn => ⟨"LED_ON", 0x80000D, 0xFFFFFF⟩

/-- The 22 rows of spec/opcode_table.json, in its order. -/
def opcodeTable : List OpcodeRow :=
  [Instr.clrf 0 0, .setf 0 0, .apply 0 0 0, .stopf 0 0, .stopAll, .handStop, .handOpen, .handClose, .wristStop, .wristUp,
   .wristDown, .elbowStop, .elbowUp, .elbowDown, .shoulderStop, .shoulderUp, .shoulderDown, .baseStop, .baseCw, .baseCcw,
   .ledOff, .ledOn].map Instr.row

/-! ## The host's reading of a table word -/

/-- The command word given by the low `nbits` bits of `w`, if it fits the 24-bit port. -/
def tableWord (nbits w : Nat) : Option CmdWord :=
  if w % 2 ^ nbits < 2 ^ 24 then some (BitVec.ofNat 24 (w % 2 ^ nbits)) else none

/-- What `decode` reads from the bits `w` of a table row. A word is one 24-bit unit with bit 0 the least significant, so
the table's numbering is the port's (R48, 20_memory.md R34). -/
def decodeTableWord (nbits w : Nat) : Option Instr :=
  match tableWord nbits w with
  | none => none
  | some cw => (decode Config.admitRaw cw).toOption

end Sys2Proof
end

