-- ==== Sys2Proof/Machine/State.lean ====
section
/-! DEFINITION. The state of the machine as plain data: the block (spec 10_state.md R13, R24), the records a model keeps
(R11, R26, R27, 93 U1) and the environment's acts still to come (00_scope.md R3). -/

namespace Sys2Proof.Machine

/-- The status of a command (60_exceptions.md R91). Code 3 is never produced and has no constructor. -/
inductive Status where
  | ok
  | transportError
  | illegalCommand
  deriving DecidableEq, Repr

/-- An entry of the transport log `T`: a frame and its answer (10_state.md R26). -/
structure Sent where
  frame : Buffer
  answer : Answer
  deriving DecidableEq, Repr

/-- The device image `DEV` (10_state.md R27): the bytes the arm last took, or unspecified. Its value in the second case
is the free value `Config.freeImage draw` (log 4). -/
inductive DevImage where
  | took (frame : Buffer)
  | unspecified (draw : Nat)
  deriving DecidableEq, Repr

/-- One act of the host (60_exceptions.md R108; log 8, log 9). -/
inductive HostAct where
  /-- Present a command word and wait for its response. -/
  | command (cw : CmdWord)
  /-- Assert `rst` with no command in progress: after the response to the last one (R101). -/
  | reset
  /-- Assert `rst` at once, whether or not a command is in progress. During a command the host must not (R101, R108). -/
  | resetNow
  deriving DecidableEq, Repr

/-- What the transport's pins show in one step while a frame is outstanding (10_state.md R24; log 2). -/
inductive TxSample where
  /-- `tx_done = 1` with this answer on `tx_err`. -/
  | answered (a : Answer)
  /-- `tx_done = 0` for now. -/
  | quiet
  /-- `tx_done = 0` from here on: the transport never answers again (70_reset_and_hazards.md R119). -/
  | silent
  deriving DecidableEq, Repr

/-- The machine. INVENTORY.md lists each field with its rule and its value after reset. -/
structure State where
  /-- The Command Buffer `B` (R13). -/
  buf : Buffer
  /-- The response of the last step: `none` is `rsp_valid = 0` (R24, R91). -/
  rsp : Option Status
  /-- A command is in progress: its frame is presented and unanswered (`tx_valid = 1`, `cmd_ready = 0`; R24, R98). -/
  inFlight : Bool
  /-- The transport log `T` since reset, oldest entry first (R26). -/
  log : List Sent
  /-- The statuses returned to the host since reset, oldest first (R11, 92 D21). -/
  statuses : List Status
  /-- The device image `DEV` (R27). -/
  dev : DevImage
  /-- A frame with an invalid field has been answered `ok`: the fault U1 records on the device image (R107). -/
  armFault : Bool
  /-- The premise `transport_attached` (R99, R112). -/
  attached : Bool
  /-- What the host will do, first act first (R21, R108). -/
  host : List HostAct
  /-- What the transport will show, first sample first; past its end the answers are free values (R3, 92 D22). -/
  answers : List TxSample
  /-- The model's own: the number of free values drawn so far. -/
  draws : Nat
  deriving DecidableEq, Repr

/-- Faults that stop the machine. The spec gives the block none: its errors are statuses (60_exceptions.md R92, R107; log 18),
so this type is empty, which is safe: no step hides behind a fault. -/
inductive Fault where
  deriving DecidableEq, Repr

/-- Why a step has no next state. -/
inductive Refusal where
  /-- Raised by an arm of `exec` whose command has no meaning yet. Safe: nothing can be proved of what it would do. -/
  | notModelled (mnemonic : String)
  /-- Raised when a command is issued with no transport attached: it has no meaning in the spec and "a model refuses it"
  (60_exceptions.md R99). Safe. -/
  | noTransport
  /-- Raised when the host asserts reset while a command is in progress (60_exceptions.md R101; 93 U7 "refuse"). Safe. -/
  | resetDuringCommand
  deriving DecidableEq, Repr

/-- The machine right after reset (10_state.md R28, R109): buffer zero, no response, no command in progress, log empty.
DESIGN CHOICE for what the spec does not give: `dev` is free value 0 and `draws` 1 (log 4), `armFault` false (log 6),
`attached` true (log 7), no acts (log 8) and no samples (log 2) listed, `statuses` empty (log 10). -/
def State.reset : State where
  buf := Config.resetValue
  rsp := none
  inFlight := false
  log := []
  statuses := []
  dev := .unspecified 0
  armFault := false
  attached := true
  host := []
  answers := []
  draws := 1

end Sys2Proof.Machine
end

