-- ==== Sys2Proof/Machine/Flags.lean ====
section
/-! DEFINITION. The block has no flags and no condition codes (spec 10_state.md R22). The only result a command leaves beside
the buffer is its status; this file gives its code and how it follows from the transport's answer (60_exceptions.md R91). -/

namespace Sys2Proof.Machine

/-- The 2-bit code of a status on `rsp_status` (R91). -/
def Status.code : Status → BitVec 2
  | .ok => 0#2
  | .transportError => 1#2
  | .illegalCommand => 2#2

end Sys2Proof.Machine

namespace Sys2Proof

/-- The status a legal command ends with, from the answer to its frame (R91). -/
def Answer.status : Answer → Machine.Status
  | .ok => .ok
  | .err => .transportError

end Sys2Proof
end

