-- ==== Sys2Proof/Machine/Operands.lean ====
section
/-! DEFINITION. Operand forms and the buffer accesses behind them (spec 20_memory.md R41): direct (`BI`), table-indirect
(`DESC(SEG)`) and implicit (the whole buffer); the mask operators (00_scope.md R8); the value of a field (10_state.md R16). -/

namespace Sys2Proof

/-! ## Addressing -/

/-- The location a `BI` operand names; 3 names none (20_memory.md R31, R36). -/
def ByteIndex.ofBits (bi : BitVec 2) : Option ByteIndex :=
  match bi.toNat with
  | 0 => some .byte0
  | 1 => some .byte1
  | 2 => some .byte2
  | _ => none

/-- The address of a location in the data address space (20_memory.md R31, R40). -/
def ByteIndex.toNat : ByteIndex → Nat
  | .byte0 => 0
  | .byte1 => 1
  | .byte2 => 2

/-- The Field Descriptor table `DESC` (10_state.md R17): the masks of the source, transcribed. -/
def descriptor : Segment → Descriptor
  | .hand     => ⟨.byte0, 0x03, 0x02, some 0x01⟩
  | .wrist    => ⟨.byte0, 0x0C, 0x04, some 0x08⟩
  | .elbow    => ⟨.byte0, 0x30, 0x10, some 0x20⟩
  | .shoulder => ⟨.byte0, 0xC0, 0x80, some 0x40⟩
  | .base     => ⟨.byte1, 0x03, 0x01, some 0x02⟩
  | .led      => ⟨.byte2, 0x01, 0x01, none⟩

/-! ## The buffer as storage (20_memory.md R41) -/

/-- `B[i]`, that is `MemRead(i, 1)`. -/
def Buffer.read (b : Buffer) : ByteIndex → Byte
  | .byte0 => b.b0
  | .byte1 => b.b1
  | .byte2 => b.b2

/-- `B[i] <- v`, that is `MemWrite(i, 1, v)`. -/
def Buffer.write (b : Buffer) (i : ByteIndex) (v : Byte) : Buffer :=
  match i with
  | .byte0 => { b with b0 := v }
  | .byte1 => { b with b1 := v }
  | .byte2 => { b with b2 := v }

/-- The all-zero buffer. -/
def Buffer.zero : Buffer := ⟨0x00, 0x00, 0x00⟩

/-- Three bytes on a 24-bit bus, byte 0 lowest (10_state.md R25, 20_memory.md R34). -/
def Buffer.pack (b : Buffer) : Bus := b.b2 ++ b.b1 ++ b.b0

/-! ## The buffer as memory: a sparse view in one canonical form (log 1) -/

/-- What an address that is not listed reads as: the reset contents (10_state.md R28). -/
def Memory.unlisted : Byte := 0x00

/-- One byte of a memory given as listed cells. -/
def Memory.read : List Host.Cell → Nat → Byte
  | [], _ => Memory.unlisted
  | (a, v) :: m, k => if k = a then v else Memory.read m k

/-- Addresses strictly rise. -/
def Memory.rising : List Host.Cell → Bool
  | [] => true
  | (a, _) :: m => m.all (fun c => decide (a < c.1)) && Memory.rising m

/-- The canonical form: addresses rise, lie in the buffer (20_memory.md R31), and no cell holds what an unlisted address
reads as. -/
def Memory.wf (m : List Host.Cell) : Bool :=
  Memory.rising m && m.all (fun c => decide (c.1 < Config.nBytes) && (c.2 != Memory.unlisted))

/-- One byte as a cell, if it differs from what an unlisted address reads as. -/
def Memory.cell (a : Nat) (v : Byte) : List Host.Cell := if v = Memory.unlisted then [] else [(a, v)]

/-- The buffer as a memory in canonical form. -/
def Buffer.cells (b : Buffer) : List Host.Cell :=
  Memory.cell 0 b.b0 ++ (Memory.cell 1 b.b1 ++ Memory.cell 2 b.b2)

/-! ## The mask operators (00_scope.md R8) -/

/-- `x & ~sm`: zero the bits that `sm` covers (40_field_operations.md R63). -/
def clearBits (sm x : Byte) : Byte := x &&& ~~~sm

/-- `x | vm`: set the bits that `vm` covers (R64). -/
def setBits (vm x : Byte) : Byte := x ||| vm

/-- `(x & ~sm) | vm`: clear, then set (R65). -/
def clearThenSet (sm vm x : Byte) : Byte := setBits vm (clearBits sm x)

/-! ## The value of a field (10_state.md R16) -/

/-- The states of a field. For the LED `stopped` is off and `directionA` is on (90 C5). -/
inductive FieldState where
  | stopped
  | directionA
  | directionB
  | invalid
  deriving DecidableEq, Repr

/-- The state of a segment's field (R16). -/
def fieldState (b : Buffer) (seg : Segment) : FieldState :=
  if b.read (descriptor seg).bi &&& (descriptor seg).sm = 0#8 then .stopped
  else if b.read (descriptor seg).bi &&& (descriptor seg).sm = (descriptor seg).va then .directionA
  else if some (b.read (descriptor seg).bi &&& (descriptor seg).sm) = (descriptor seg).vb then .directionB
  else .invalid

/-- The six segments (R17). -/
def Segment.all : List Segment := [.hand, .wrist, .elbow, .shoulder, .base, .led]

/-- Some field has both direction bits set (R16): what U1 calls a fault of the device image once the arm takes it. -/
def Buffer.hasInvalidField (b : Buffer) : Bool :=
  Segment.all.any (fun seg => decide (fieldState b seg = .invalid))

end Sys2Proof
end

