-- ==== Sys2Proof/Machine/Ops.lean ====
section
/-! DEFINITION. The shared operations: the transport write `Send` (spec 20_memory.md R42), the end of a command with its status
(60_exceptions.md R91), the two errors (R93, R95), the command skeleton (00_scope.md R10), reset (70_reset_and_hazards.md R109). -/

namespace Sys2Proof.Machine

/-- The outcome of running a command. -/
abbrev Result := Host.Outcome State Fault Refusal

/-! ## The transport's draw (00_scope.md R3; log 2) -/

/-- What the transport shows in this step: the next listed sample, or past the list's end a free answer. -/
def State.txSample (s : State) : TxSample :=
  match s.answers with
  | [] => .answered (Config.freeAnswer s.draws)
  | x :: _ => x

/-- The samples left after one is taken; a silent transport stays silent. -/
def dropSample : List TxSample → List TxSample
  | [] => []
  | .silent :: rest => .silent :: rest
  | .quiet :: rest => rest
  | .answered _ :: rest => rest

/-- Take one sample of the transport. -/
def State.takeSample (s : State) : State :=
  { s with answers := dropSample s.answers, draws := if s.answers.isEmpty then s.draws + 1 else s.draws }

/-! ## Records of a frame -/

/-- The device image after the transport's answer (10_state.md R27): the frame after `ok`, unspecified after `err`. -/
def imageAfter (a : Answer) (frame : Buffer) (draw : Nat) : DevImage :=
  match a with
  | .ok => .took frame
  | .err => .unspecified draw

/-- The free values an answer uses up. -/
def drawsAfter (a : Answer) (n : Nat) : Nat :=
  match a with
  | .ok => n
  | .err => n + 1

/-- The fault of the device image an answer records (93 U1): a frame with an invalid field was answered `ok`. -/
def armFaultBy (a : Answer) (frame : Buffer) : Bool := decide (a = .ok) && frame.hasInvalidField

/-- The frame in progress is answered: one entry of `T` (10_state.md R26), the device image (R27), no command in progress. -/
def State.recordAnswer (a : Answer) (s : State) : State :=
  { s with
    inFlight := false
    log := s.log ++ [⟨s.buf, a⟩]
    dev := imageAfter a s.buf s.draws
    draws := drawsAfter a s.draws
    armFault := s.armFault || armFaultBy a s.buf }

/-! ## The end of a command -/

/-- End a command with a status: `rsp_valid`, `rsp_status` and the record of statuses (60_exceptions.md R91). This is the
whole of taking an exception too: an error saves nothing, changes no mode and goes nowhere (R102). -/
def State.respond (st : Status) (s : State) : State :=
  { s with rsp := some st, statuses := s.statuses ++ [st] }

/-- `raise IllegalCommand` (R93): status 2 and nothing else. There is no return from it: the block is ready for the next
command (R97, R103). -/
def State.raiseIllegal (s : State) : State := s.respond .illegalCommand

/-- Stage 4 of R10: `respond OK`, or `raise TransportError` with the buffer kept (R95). -/
def State.finish (a : Answer) (s : State) : State := (s.recordAnswer a).respond a.status

/-! ## Send (20_memory.md R42) -/

/-- The frame is presented and not yet answered: the command stays in progress (R42, 60_exceptions.md R98; log 3). Whether
the arm has taken the frame is then unspecified (log 5). -/
def State.present (s : State) : State :=
  { s with inFlight := true, rsp := none, dev := .unspecified s.draws, draws := s.draws + 1 }

/-- Stages 3 and 4 of R10: hand the whole buffer to the transport once, and end the command if it answers. -/
def State.send (s : State) : State :=
  match s.txSample with
  | .answered a => s.takeSample.finish a
  | .quiet => s.takeSample.present
  | .silent => s.takeSample.present

/-- A step while a command is in progress: its answer ends it, else it waits (R98, 70_reset_and_hazards.md R119). -/
def State.await (s : State) : State :=
  match s.txSample with
  | .answered a => s.takeSample.finish a
  | .quiet => s.takeSample
  | .silent => s.takeSample

/-! ## The skeleton of a command (00_scope.md R10) -/

/-- Write the buffer (stage 2). -/
def State.withBuf (b : Buffer) (s : State) : State := { s with buf := b }

/-- A command at the port: with no transport attached it has no meaning (60_exceptions.md R99); while another is in
progress it is not accepted and changes nothing (20_memory.md R38; log 13); else `run` is what it does. -/
def accept (run : State → State) (s : State) : Result :=
  if s.attached = true then
    if s.inFlight = true then .next s else .next (run s)
  else .refused .noTransport

/-- A legal command: stage 2 with its own `mutate`, then stages 3 and 4. -/
def command (mutate : Buffer → Buffer) (s : State) : Result :=
  accept (fun s => (s.withBuf (mutate s.buf)).send) s

/-- An illegal command (60_exceptions.md R93). -/
def illegalCommand (s : State) : Result := accept State.raiseIllegal s

/-- A raw operation: rewrite byte `BI` by `f`. `BI = 3` is illegal: nothing written, nothing sent, no wrap
(20_memory.md R36; log 14). -/
def rawCommand (bi : BitVec 2) (f : Byte → Byte) (s : State) : Result :=
  match ByteIndex.ofBits bi with
  | some i => command (fun b => b.write i (f (b.read i))) s
  | none => illegalCommand s

/-- The stop of a segment: clear its field (30_encoding.md R54 `ACT = 0`, 41_segment_commands.md R70). -/
def stopSegment (seg : Segment) (s : State) : Result :=
  command (fun b => b.write (descriptor seg).bi (clearBits (descriptor seg).sm (b.read (descriptor seg).bi))) s

/-- Direction A of a segment: clear its field, set value A (R54 `ACT = 1`, R70). -/
def moveA (seg : Segment) (s : State) : Result :=
  command (fun b => b.write (descriptor seg).bi
    (clearThenSet (descriptor seg).sm (descriptor seg).va (b.read (descriptor seg).bi))) s

/-- Direction B of a segment: clear its field, set value B (R54 `ACT = 2`, R70); illegal where there is none (R58). -/
def moveB (seg : Segment) (s : State) : Result :=
  match (descriptor seg).vb with
  | some vb =>
    command (fun b => b.write (descriptor seg).bi
      (clearThenSet (descriptor seg).sm vb (b.read (descriptor seg).bi))) s
  | none => illegalCommand s

/-! ## Reset and rest -/

/-- Reset of the block (70_reset_and_hazards.md R109, 10_state.md R28): buffer zero, no response, log restarted, no frame
sent; `statuses` restart with the log (log 10), the environment stays. `DEV` stays too: R27 and R28 say so and 93 U10 says any
value; DESIGN CHOICE for R27, unsafe (log 21). -/
def State.resetBlock (s : State) : State :=
  { s with buf := Config.resetValue, rsp := none, inFlight := false, log := [], statuses := [] }

/-- Nothing happens between commands; a response lasts one step (10_state.md R24; log 17). -/
def State.idle (s : State) : State := { s with rsp := none }

end Sys2Proof.Machine
end

