-- ==== Sys2Proof/Machine/Field.lean ====
section
/-! DEFINITION. The field operations CLRF, SETF, APPLY, STOPF, STOPALL (spec 40_field_operations.md R63 to R67). -/

namespace Sys2Proof.Machine

/-- CLRF (R63): `B[BI] <- B[BI] & ~SM`, then one frame. -/
def execClrf (bi : BitVec 2) (sm : Byte) (s : State) : Result := rawCommand bi (clearBits sm) s

/-- SETF (R64): `B[BI] <- B[BI] | VM`, then one frame. -/
def execSetf (bi : BitVec 2) (vm : Byte) (s : State) : Result := rawCommand bi (setBits vm) s

/-- APPLY (R65): `B[BI] <- (B[BI] & ~SM) | VM` as one write, then one frame. -/
def execApply (bi : BitVec 2) (sm vm : Byte) (s : State) : Result := rawCommand bi (clearThenSet sm vm) s

/-- STOPF (R66): CLRF under another name. -/
def execStopf (bi : BitVec 2) (sm : Byte) (s : State) : Result := rawCommand bi (clearBits sm) s

/-- STOPALL (R67): all 24 bits cleared by one write that reads nothing, then one frame. -/
def execStopAll (s : State) : Result := command (fun _ => Buffer.zero) s

end Sys2Proof.Machine
end

