-- ==== Sys2Proof/Machine/Led.lean ====
section
/-! DEFINITION. The LED commands (spec 42_led_commands.md R87 to R90). -/

namespace Sys2Proof.Machine

/-- R89: LED_OFF, `STOPF 2, 0x01`: a clear of the on bit; nothing is set (R90). -/
def execLedOff (s : State) : Result := stopSegment .led s

/-- R88: LED_ON, `APPLY 2, 0x01, 0x01`. -/
def execLedOn (s : State) : Result := moveA .led s

end Sys2Proof.Machine
end

