-- ==== Sys2Proof/Machine/Segment.lean ====
section
/-! DEFINITION. The fifteen segment commands (spec 41_segment_commands.md R70 to R85): each is the instance of a shared operation
with the masks its segment has in `DESC`. -/

namespace Sys2Proof.Machine

/-- R71: HAND_STOP, `STOPF 0, 0x03`. -/
def execHandStop (s : State) : Result := stopSegment .hand s

/-- R72: HAND_OPEN, `APPLY 0, 0x03, 0x02`. -/
def execHandOpen (s : State) : Result := moveA .hand s

/-- R73: HAND_CLOSE, `APPLY 0, 0x03, 0x01`. -/
def execHandClose (s : State) : Result := moveB .hand s

/-- R74: WRIST_STOP, `STOPF 0, 0x0C`. -/
def execWristStop (s : State) : Result := stopSegment .wrist s

/-- R75: WRIST_UP, `APPLY 0, 0x0C, 0x04`. -/
def execWristUp (s : State) : Result := moveA .wrist s

/-- R76: WRIST_DOWN, `APPLY 0, 0x0C, 0x08`. -/
def execWristDown (s : State) : Result := moveB .wrist s

/-- R77: ELBOW_STOP, `STOPF 0, 0x30`. -/
def execElbowStop (s : State) : Result := stopSegment .elbow s

/-- R78: ELBOW_UP, `APPLY 0, 0x30, 0x10`. -/
def execElbowUp (s : State) : Result := moveA .elbow s

/-- R79: ELBOW_DOWN, `APPLY 0, 0x30, 0x20`. -/
def execElbowDown (s : State) : Result := moveB .elbow s

/-- R80: SHOULDER_STOP, `STOPF 0, 0xC0`. -/
def execShoulderStop (s : State) : Result := stopSegment .shoulder s

/-- R81: SHOULDER_UP, `APPLY 0, 0xC0, 0x80`. -/
def execShoulderUp (s : State) : Result := moveA .shoulder s

/-- R82: SHOULDER_DOWN, `APPLY 0, 0xC0, 0x40`. -/
def execShoulderDown (s : State) : Result := moveB .shoulder s

/-- R83: BASE_STOP, `STOPF 1, 0x03`. -/
def execBaseStop (s : State) : Result := stopSegment .base s

/-- R84: BASE_CW, `APPLY 1, 0x03, 0x01`. -/
def execBaseCw (s : State) : Result := moveA .base s

/-- R85: BASE_CCW, `APPLY 1, 0x03, 0x02`. -/
def execBaseCcw (s : State) : Result := moveB .base s

end Sys2Proof.Machine
end

