-- ==== Sys2Proof/Machine/Dispatch.lean ====
section
/-! DEFINITION. One arm per command (spec 30_encoding.md R55). -/

namespace Sys2Proof.Machine

def exec (i : Instr) (s : State) : Host.Outcome State Fault Refusal :=
  match i with
  | .clrf bi sm => Sys2Proof.Machine.execClrf bi sm s
  | .setf bi vm => Sys2Proof.Machine.execSetf bi vm s
  | .apply bi sm vm => Sys2Proof.Machine.execApply bi sm vm s
  | .stopf bi sm => Sys2Proof.Machine.execStopf bi sm s
  | .stopAll => Sys2Proof.Machine.execStopAll s
  | .handStop => Sys2Proof.Machine.execHandStop s
  | .handOpen => Sys2Proof.Machine.execHandOpen s
  | .handClose => Sys2Proof.Machine.execHandClose s
  | .wristStop => Sys2Proof.Machine.execWristStop s
  | .wristUp => Sys2Proof.Machine.execWristUp s
  | .wristDown => Sys2Proof.Machine.execWristDown s
  | .elbowStop => Sys2Proof.Machine.execElbowStop s
  | .elbowUp => Sys2Proof.Machine.execElbowUp s
  | .elbowDown => Sys2Proof.Machine.execElbowDown s
  | .shoulderStop => Sys2Proof.Machine.execShoulderStop s
  | .shoulderUp => Sys2Proof.Machine.execShoulderUp s
  | .shoulderDown => Sys2Proof.Machine.execShoulderDown s
  | .baseStop => Sys2Proof.Machine.execBaseStop s
  | .baseCw => Sys2Proof.Machine.execBaseCw s
  | .baseCcw => Sys2Proof.Machine.execBaseCcw s
  | .ledOff => Sys2Proof.Machine.execLedOff s
  | .ledOn => Sys2Proof.Machine.execLedOn s

end Sys2Proof.Machine
end

