-- ==== Sys2Proof/Machine/Pins.lean ====
section
/-! DEFINITION. The pins of the block as views of State (spec 10_state.md R24, R25), the value of the device image (R27), what a
claim may observe (00_scope.md R11), and the control transfer that carries a frame (20_memory.md R42). -/

namespace Sys2Proof.Machine

/-- `q`: the latch output shows the buffer at all times (R25). -/
def State.q (s : State) : Bus := s.buf.pack

/-- `cmd_ready`: low from acceptance until the response (R24). -/
def State.cmdReady (s : State) : Bool := !s.inFlight

/-- `rsp_valid` (R24). -/
def State.rspValid (s : State) : Bool := s.rsp.isSome

/-- `rsp_status`; no value while `rsp_valid = 0`, when it must not be read (R28, 93 U11; log 11). -/
def State.rspStatus (s : State) : Option (BitVec 2) := s.rsp.map Status.code

/-- `tx_valid`: a frame is presented (R24). -/
def State.txValid (s : State) : Bool := s.inFlight

/-- `tx_data`: equals `q` while `tx_valid = 1` (R25); no value otherwise (R28, 93 U11; log 11). -/
def State.txData (s : State) : Option Bus := if s.inFlight then some s.q else none

/-- `rst`: the host asserts it at once, or once no command is in progress (60_exceptions.md R101; log 9). -/
def State.rst (s : State) : Bool :=
  match s.host with
  | .resetNow :: _ => true
  | .reset :: _ => !s.inFlight
  | .command _ :: _ => false
  | [] => false

/-- `cmd_valid` and `cmd`: the word the host presents (R24). -/
def State.cmd (s : State) : Option CmdWord :=
  match s.host with
  | .command cw :: _ => some cw
  | .reset :: _ => none
  | .resetNow :: _ => none
  | [] => none

/-- `tx_done` and `tx_err`: the answer the transport gives in this step, if a frame is outstanding (R24). -/
def State.txDone (s : State) : Option Answer :=
  if s.inFlight then
    match s.txSample with
    | .answered a => some a
    | .quiet => none
    | .silent => none
  else none

/-- The three bytes of the device image; unspecified, they are a free value (R27; log 4). -/
def DevImage.bytes : DevImage → Buffer
  | .took frame => frame
  | .unspecified draw => Config.freeImage draw

/-- What a claim about the block may observe: buffer, transport log, statuses (00_scope.md R11). -/
def State.observed (s : State) : Buffer × List Sent × List Status := (s.buf, s.log, s.statuses)

/-- A control transfer as the transport sees it (20_memory.md R42): four open constants and the frame in index order
(R34). -/
structure ControlTransfer where
  requestType : Nat
  request : Nat
  value : Nat
  index : Nat
  payload : List Byte
  deriving DecidableEq, Repr

/-- The transfer of a frame: the same constants on every call, the whole buffer as payload (R42, 00_scope.md R6). -/
def controlTransfer (frame : Buffer) : ControlTransfer where
  requestType := Config.txRequestType
  request := Config.txRequest
  value := Config.txValue
  index := Config.txIndex
  payload := [frame.b0, frame.b1, frame.b2]

end Sys2Proof.Machine
end

