-- ==== Sys2Proof/Machine/Port.lean ====
section
/-! DEFINITION. The command port: how a presented word becomes a command (spec 00_scope.md R10, 10_state.md R21, R24), and one
event of the machine: a reset, a command, a wait for the transport, or nothing. -/

namespace Sys2Proof.Machine

/-- Stage 1 of R10: decode the word and run the command, or end with IllegalCommand (60_exceptions.md R93). -/
def runWord (admitRaw : Bool) (cw : CmdWord) (s : State) : Result :=
  match decode admitRaw cw with
  | .ok i => exec i s
  | .error _ => illegalCommand s

/-- The host's first act is done. -/
def State.dropAct (s : State) : State := { s with host := s.host.tail }

/-- An event while a command is in progress: only the transport can end it (R98); the host's next word waits (R38); a reset
is refused (R101, 93 U7). -/
def busyEvent (s : State) : Result :=
  match s.host with
  | .resetNow :: _ => .refused .resetDuringCommand
  | .reset :: _ => .next s.await
  | .command _ :: _ => .next s.await
  | [] => .next s.await

/-- An event while the block is ready: the host's next act, or nothing (70_reset_and_hazards.md R111). -/
def readyEvent (admitRaw : Bool) (s : State) : Result :=
  match s.host with
  | .command cw :: _ => runWord admitRaw cw s.dropAct
  | .reset :: _ => .next s.dropAct.resetBlock
  | .resetNow :: _ => .next s.dropAct.resetBlock
  | [] => .next s.idle

/-- One event of a block built with this `ADMIT_RAW` (30_encoding.md R61). -/
def stepWith (admitRaw : Bool) (s : State) : Result :=
  if s.inFlight = true then busyEvent s else readyEvent admitRaw s

/-- The state in which the host presents this word next and the block can take it. -/
def State.presenting (cw : CmdWord) (s : State) : State :=
  { s with host := .command cw :: s.host, inFlight := false }

end Sys2Proof.Machine
end

