-- ==== Sys2Proof/Machine/Step.lean ====
section
/-! DEFINITION. The step of the machine: one event of the block with `ADMIT_RAW` as the spec takes it (spec 00_scope.md R6). -/

namespace Sys2Proof.Machine

/-- One step (Machine/Port.lean). -/
def step (s : State) : Host.Outcome State Fault Refusal := stepWith Config.admitRaw s

/-- The state in which the very next step runs the word `w`: the host presents it and the block is ready (log 8). A word
that does not fit the 24-bit port changes nothing. -/
def State.withFetchWord (s : State) (nbits w : Nat) : State :=
  match tableWord nbits w with
  | some cw => s.presenting cw
  | none => s

end Sys2Proof.Machine
end

