-- ==== Sys2Proof/Machine/Assembler.lean ====
section
/-! DEFINITION. The assembler's line (spec 30_encoding.md R62): `MNEMONIC op, op ; comment`, the source's own names as a second
spelling, and the pseudo-instruction NOPSEND. A tool of the host, not of the block: no step reads this file. -/

namespace Sys2Proof.Asm

/-- `NOPSEND` = `CLRF 0, 0x00` (R62): changes no bit and sends the buffer once more. -/
def nopSend : Instr := .clrf 0 0x00

/-- A blank inside a line. -/
def isBlank (c : Char) : Bool := c == ' ' || c == '\t'

/-- The text before a `;` comment. -/
def beforeComment (l : List Char) : List Char := l.takeWhile (· != ';')

/-- A text without the blanks around it. -/
def trim (l : List Char) : List Char := ((l.dropWhile isBlank).reverse.dropWhile isBlank).reverse

/-- The pieces of a text between commas. -/
def splitCommas : List Char → List (List Char)
  | [] => [[]]
  | c :: cs =>
    if c == ',' then [] :: splitCommas cs
    else
      match splitCommas cs with
      | [] => [[c]]
      | w :: ws => (c :: w) :: ws

/-- The value of a digit in a base. -/
def digit (base : Nat) (c : Char) : Option Nat :=
  let v := if '0' ≤ c ∧ c ≤ '9' then c.toNat - '0'.toNat
    else if 'a' ≤ c ∧ c ≤ 'f' then c.toNat - 'a'.toNat + 10
    else if 'A' ≤ c ∧ c ≤ 'F' then c.toNat - 'A'.toNat + 10
    else base
  if v < base then some v else none

/-- Digits, most significant first, after the value `acc` read so far. -/
def digits (base : Nat) : List Char → Nat → Option Nat
  | [], acc => some acc
  | c :: cs, acc =>
    match digit base c with
    | some v => digits base cs (acc * base + v)
    | none => none

/-- A number in a notation of R7: `0x..`, `0b..`, else decimal. -/
def number : List Char → Option Nat
  | [] => none
  | ['0', 'x'] => none
  | ['0', 'b'] => none
  | '0' :: 'x' :: cs => digits 16 cs 0
  | '0' :: 'b' :: cs => digits 2 cs 0
  | cs => digits 10 cs 0

/-- All the operands of a text; none of them for a blank text. -/
def operands (l : List Char) : Option (List Nat) :=
  if (trim l).isEmpty then some [] else (splitCommas l).mapM (fun w => number (trim w))

/-- A byte index: 0, 1 or 2 (R36). -/
def asIndex (n : Nat) : Option (BitVec 2) := if n < 3 then some (BitVec.ofNat 2 n) else none

/-- A mask: any 8-bit value (R53). -/
def asMask (n : Nat) : Option Byte := if n < 256 then some (BitVec.ofNat 8 n) else none

/-- A byte index and one mask. -/
def oneMask (f : BitVec 2 → Byte → Instr) : List Nat → Option Instr
  | [b, m] =>
    match asIndex b, asMask m with
    | some bi, some k => some (f bi k)
    | _, _ => none
  | _ => none

/-- A byte index and two masks. -/
def twoMasks (f : BitVec 2 → Byte → Byte → Instr) : List Nat → Option Instr
  | [b, m, v] =>
    match asIndex b, asMask m, asMask v with
    | some bi, some sm, some vm => some (f bi sm vm)
    | _, _, _ => none
  | _ => none

/-- The commands that take no operand, by mnemonic (R55, R62). -/
def plainNames : List (String × Instr) :=
  [("STOPALL", .stopAll), ("NOPSEND", nopSend),
   ("HAND_STOP", .handStop), ("HAND_OPEN", .handOpen), ("HAND_CLOSE", .handClose),
   ("WRIST_STOP", .wristStop), ("WRIST_UP", .wristUp), ("WRIST_DOWN", .wristDown),
   ("ELBOW_STOP", .elbowStop), ("ELBOW_UP", .elbowUp), ("ELBOW_DOWN", .elbowDown),
   ("SHOULDER_STOP", .shoulderStop), ("SHOULDER_UP", .shoulderUp), ("SHOULDER_DOWN", .shoulderDown),
   ("BASE_STOP", .baseStop), ("BASE_CW", .baseCw), ("BASE_CCW", .baseCcw),
   ("LED_OFF", .ledOff), ("LED_ON", .ledOn)]

/-- The source's own spellings of commands without operands (R62). -/
def sourceNames : List (String × Instr) :=
  [("stopAll()", .stopAll), ("turnLedOn", .ledOn), ("turnLedOff", .ledOff),
   ("open hand", .handOpen), ("close hand", .handClose), ("stop hand", .handStop),
   ("shoulder-up", .shoulderUp), ("elbow-up", .elbowUp), ("wrist-up", .wristUp), ("base-counter-clockwise", .baseCcw),
   ("LED-on", .ledOn), ("LED-off", .ledOff)]

/-- A raw operation by name (R62): its mnemonic, or the source's name. -/
def rawOperation (name : String) (ops : List Nat) : Option Instr :=
  if name = "CLRF" ∨ name = "clearField" then oneMask .clrf ops
  else if name = "SETF" ∨ name = "setField" then oneMask .setf ops
  else if name = "APPLY" ∨ name = "applyDirectional" then twoMasks .apply ops
  else if name = "STOPF" ∨ name = "stopField" then oneMask .stopf ops
  else none

/-- The operands of the source's call form `name(a, b)`: the text between the parentheses. -/
def callOperands : List Char → Option (List Char)
  | '(' :: cs => if cs.getLast? = some ')' then some cs.dropLast else none
  | _ => none

/-- What a line of source text says. -/
inductive Line where
  | blank
  | command (i : Instr)
  | error
  deriving DecidableEq, Repr

/-- One line of assembler text (R62). -/
def parseLine (text : String) : Line :=
  let body := trim (beforeComment text.toList)
  if body.isEmpty then .blank
  else
    match (plainNames ++ sourceNames).lookup (String.ofList body) with
    | some i => .command i
    | none =>
      let name := body.takeWhile (fun c => !isBlank c && c != '(')
      let rest := trim (body.drop name.length)
      let args := if rest.head? = some '(' then callOperands rest else some rest
      match (args.bind operands).bind (rawOperation (String.ofList name)) with
      | some i => .command i
      | none => .error

/-- The words of a program text, one line after the other; none if a line does not parse (R21, R62). -/
def assemble : List String → Option (List CmdWord)
  | [] => some []
  | l :: ls =>
    match parseLine l, assemble ls with
    | .blank, some ws => some ws
    | .command i, some ws => some (encode i :: ws)
    | .error, _ => none
    | _, none => none

end Sys2Proof.Asm
end

