-- ==== Sys2Proof/Safety.lean ====
section
/-! DEFINITION. The terms claims use: the buffer invariant (spec 10_state.md R20), what a command leaves when its frame is
answered and when it is not (00_scope.md R10, 60_exceptions.md R91, R95, R98), what it must not touch (40_field_operations.md
R68), and the laws of the frame log and the device image (70_reset_and_hazards.md R124, 10_state.md R27). -/

namespace Sys2Proof

/-! ## The buffer invariant -/

/-- `INV(B)` as R20 writes it: no two-bit field has both bits set, no unallocated bit is set. -/
def Buffer.inv (b : Buffer) : Bool :=
  (b.b0 &&& 0x03#8 != 0x03#8) && (b.b0 &&& 0x0C#8 != 0x0C#8) && (b.b0 &&& 0x30#8 != 0x30#8) && (b.b0 &&& 0xC0#8 != 0xC0#8)
    && (b.b1 &&& 0x03#8 != 0x03#8) && (b.b1 &&& 0xFC#8 == 0x00#8) && (b.b2 &&& 0xFE#8 == 0x00#8)

/-! ## What a command may touch -/

/-- The bits a command may change (R68): `K = SM | VM` in the byte it names, the stop mask of the field of a named command,
everything for STOPALL. -/
def Instr.footprint : Instr → Buffer
  | .clrf bi sm => rawFootprint bi sm
  | .setf bi vm => rawFootprint bi vm
  | .apply bi sm vm => rawFootprint bi (sm ||| vm)
  | .stopf bi sm => rawFootprint bi sm
  | .stopAll => ⟨0xFF, 0xFF, 0xFF⟩
  | .handStop => segFootprint .hand
  | .handOpen => segFootprint .hand
  | .handClose => segFootprint .hand
  | .wristStop => segFootprint .wrist
  | .wristUp => segFootprint .wrist
  | .wristDown => segFootprint .wrist
  | .elbowStop => segFootprint .elbow
  | .elbowUp => segFootprint .elbow
  | .elbowDown => segFootprint .elbow
  | .shoulderStop => segFootprint .shoulder
  | .shoulderUp => segFootprint .shoulder
  | .shoulderDown => segFootprint .shoulder
  | .baseStop => segFootprint .base
  | .baseCw => segFootprint .base
  | .baseCcw => segFootprint .base
  | .ledOff => segFootprint .led
  | .ledOn => segFootprint .led
where
  /-- A mask in the byte a `BI` names; nothing for `BI = 3`. -/
  rawFootprint (bi : BitVec 2) (k : Byte) : Buffer :=
    match ByteIndex.ofBits bi with
    | some j => Buffer.zero.write j k
    | none => Buffer.zero
  /-- The stop mask of a segment in its byte. -/
  segFootprint (seg : Segment) : Buffer := Buffer.zero.write (descriptor seg).bi (descriptor seg).sm

end Sys2Proof

namespace Sys2Proof.Machine

/-! ## What one command leaves -/

/-- The block takes a command: a transport is attached (60_exceptions.md R99) and no command is in progress (`cmd_ready = 1`). -/
def Ready (s : State) : Prop := s.attached = true ∧ s.inFlight = false

/-- `t` is `s` after a command whose one frame, the whole buffer, was answered `a` (00_scope.md R10, 60_exceptions.md R91, R95;
10_state.md R26, R27). The environment's `answers`, the counter `draws` and the record `armFault` (log 6) are not described. -/
structure Completed (s t : State) (a : Answer) : Prop where
  /-- One frame is sent, and it is the buffer after the write. -/
  log : t.log = s.log ++ [⟨t.buf, a⟩]
  /-- One response. -/
  rsp : t.rsp = some a.status
  statuses : t.statuses = s.statuses ++ [a.status]
  /-- The block is ready again. -/
  done : t.inFlight = false
  /-- The arm took the frame if it was answered `ok`, and holds a fresh unknown image if not. -/
  devOk : a = .ok → t.dev = .took t.buf
  devErr : a = .err → ∃ k, t.dev = .unspecified k ∧ s.draws ≤ k ∧ k < t.draws
  attached : t.attached = s.attached
  host : t.host = s.host

/-- `t` is `s` with a command in progress: its frame is presented, nothing is answered, logged or returned (R98). -/
structure Waiting (s t : State) : Prop where
  log : t.log = s.log
  rsp : t.rsp = none
  statuses : t.statuses = s.statuses
  busy : t.inFlight = true
  /-- `tx_data` shows the buffer after the write (10_state.md R25). -/
  txData : t.txData = some t.buf.pack
  attached : t.attached = s.attached
  host : t.host = s.host

/-- Every state in which the block takes command `i` runs it to a next state whose buffer `P` relates to the one before: the
command ends if the transport answers and stays in progress if it does not. -/
def Effect (i : Instr) (P : Buffer → Buffer → Prop) : Prop :=
  ∀ s, Ready s →
    (∀ a, s.txSample = .answered a → ∃ t, exec i s = .next t ∧ P s.buf t.buf ∧ Completed s t a) ∧
    (s.txSample = .quiet ∨ s.txSample = .silent → ∃ t, exec i s = .next t ∧ P s.buf t.buf ∧ Waiting s t)

/-- `t` is `s` after IllegalCommand (60_exceptions.md R93): status 2 and nothing else. -/
def Illegalled (s t : State) : Prop :=
  t = { s with rsp := some .illegalCommand, statuses := s.statuses ++ [.illegalCommand] }

/-- The word is accepted at the port and ends at decode (60_exceptions.md R93): nothing written, nothing sent. -/
def RefusedWord (admitRaw : Bool) (cw : CmdWord) : Prop :=
  (∃ e, decode admitRaw cw = .error e) ∧
  ∀ s rest, Ready s → s.host = .command cw :: rest →
    ∃ t, stepWith admitRaw s = .next t ∧ Illegalled { s with host := rest } t

/-- The byte that `bi` names is rewritten bit by bit by `g`, the other bytes stay. -/
def ByteRewritten (bi : BitVec 2) (g : Nat → Bool → Bool) (b b' : Buffer) : Prop :=
  ∃ j, ByteIndex.ofBits bi = some j ∧ (∀ k < 8, (b'.read j).getLsbD k = g k ((b.read j).getLsbD k)) ∧
    ∀ j', j' ≠ j → b'.read j' = b.read j'

/-- The rule of a named command `i` (41_segment_commands.md R70): its word, the raw operation it equals, its effect. -/
def NamedRule (i : Instr) (cw : CmdWord) (raw : Instr) (P : Buffer → Buffer → Prop) : Prop :=
  (∀ admitRaw, decode admitRaw cw = .ok i) ∧ (∀ s, exec i s = exec raw s) ∧ Effect i P

/-! ## What no command touches -/

/-- The frame of every command beside the buffer: the host's acts and the premise stay, the two records only grow, by at most
one entry, and the entry of `log` carries the new buffer. -/
structure RestKept (s t : State) : Prop where
  host : t.host = s.host
  attached : t.attached = s.attached
  log : t.log = s.log ∨ ∃ a, t.log = s.log ++ [⟨t.buf, a⟩]
  statuses : t.statuses = s.statuses ∨ ∃ st, t.statuses = s.statuses ++ [st]
  /-- A recorded fault of the device image stays recorded: the model's choice (log 6). -/
  armFault : s.armFault = true → t.armFault = true

/-! ## Sequences of commands -/

/-- Run commands one after the other, stopping at the first that has no next state. -/
def execAll : List Instr → State → Result
  | [], s => .next s
  | i :: rest, s =>
    match exec i s with
    | .next t => execAll rest t
    | .fault r => .fault r
    | .refused r => .refused r

/-- Run a block built with this `ADMIT_RAW` for `k` steps. -/
def runWith (admitRaw : Bool) : Nat → State → Result
  | 0, s => .next s
  | k + 1, s =>
    match stepWith admitRaw s with
    | .next t => runWith admitRaw k t
    | .fault r => .fault r
    | .refused r => .refused r

/-- Every listed sample of the transport is an answer: it is never quiet and never silent. -/
def Answering (s : State) : Prop := ∀ x ∈ s.answers, ∃ a, x = .answered a

/-! ## Laws of the records -/

/-- The frame law (70_reset_and_hazards.md R124): between commands the buffer equals the last frame sent, or the reset value if
none was. -/
def FrameLaw (s : State) : Prop :=
  s.inFlight = false →
    match s.log.getLast? with
    | some e => s.buf = e.frame
    | none => s.buf = Config.resetValue

/-- Statuses and frames agree (60_exceptions.md R91, 10_state.md R26): leaving out the illegal commands, the statuses returned
are those of the logged answers, in order. -/
def StatusLaw (s : State) : Prop :=
  s.statuses.filter (fun st => decide (st ≠ .illegalCommand)) = s.log.map (fun e => e.answer.status)

/-- The image law (10_state.md R27): between commands, if the last frame was answered `ok`, the arm holds the buffer. -/
def ImageLaw (s : State) : Prop :=
  s.inFlight = false → ∀ e, s.log.getLast? = some e → e.answer = .ok → s.dev = .took s.buf

/-- A safe state for the arm: the buffer holds no invalid field and no unallocated bit (R20), and no frame with an invalid field
was ever taken (93 U1). -/
def ArmSafe (s : State) : Prop := s.buf.inv = true ∧ s.armFault = false

end Sys2Proof.Machine
end

