-- ==== Sys2Proof/Certificates/Slice0/Obligations.lean ====
section
/-! DEFINITION. The statements for the provers. Each docstring names the rule of spec/ the statement formalises, or says that it
rests on a choice of the model. No statement rests on the value of a free value or of the counter `draws`. -/

open Sys2Proof Sys2Proof.Machine

/-! ## Encoding -/

/-- Every well-formed command is what its word decodes to (30_encoding.md R49 to R51, R55). -/
def Obligations.DecodeOfEncode : Prop :=
  ∀ i : Instr, i.wf = true → decode true (encode i) = .ok i

/-- Every legal word is the word of the command it decodes to, whatever `ADMIT_RAW` is, and lies in that command's row of the
opcode table (30_encoding.md R55, R59). -/
def Obligations.EncodeOfDecode : Prop :=
  ∀ (admitRaw : Bool) (cw : CmdWord) (i : Instr), decode admitRaw cw = .ok i →
    encode i = cw ∧ i.wf = true ∧ cw &&& i.row.mask = i.row.pattern

/-- Words written out from 30_encoding.md R55 (95_test_vectors.md V1) decode to their commands. -/
def Obligations.SpecWordsDecode : Prop :=
  decode true 0x100300#24 = .ok (.clrf 0 0x03) ∧ decode true 0x12FE00#24 = .ok (.clrf 2 0xFE) ∧
  decode true 0x210080#24 = .ok (.setf 1 0x80) ∧ decode true 0x310302#24 = .ok (.apply 1 0x03 0x02) ∧
  decode true 0x40C000#24 = .ok (.stopf 0 0xC0) ∧ decode true 0x500000#24 = .ok .stopAll ∧
  decode true 0x800010#24 = .ok .handClose ∧ decode true 0x80000D#24 = .ok .ledOn

/-- The causes of IllegalCommand are exactly those of 60_exceptions.md R94, every one of them gives status 2 alone, and none
depends on the buffer. -/
def Obligations.IllegalWordsAreTheListedCauses : Prop :=
  (∀ (admitRaw : Bool) (cw : CmdWord),
    (∃ e, decode admitRaw cw = .error e) ↔
      (cw.extractLsb' 20 4 ∈ [0#4, 6#4, 7#4, 9#4, 10#4, 11#4, 12#4, 13#4, 14#4, 15#4]) ∨
      (cw.extractLsb' 20 4 ∈ [1#4, 2#4, 3#4, 4#4] ∧ cw.extractLsb' 18 2 ≠ 0#2) ∨
      (cw.extractLsb' 20 4 = 5#4 ∧ cw.extractLsb' 0 20 ≠ 0#20) ∨
      (cw.extractLsb' 20 4 = 8#4 ∧ cw.extractLsb' 5 15 ≠ 0#15) ∨
      (cw.extractLsb' 20 4 ∈ [1#4, 4#4] ∧ cw.extractLsb' 0 8 ≠ 0#8) ∨
      (cw.extractLsb' 20 4 = 2#4 ∧ cw.extractLsb' 8 8 ≠ 0#8) ∨
      (cw.extractLsb' 20 4 ∈ [1#4, 2#4, 3#4, 4#4] ∧ cw.extractLsb' 16 2 = 3#2) ∨
      (cw.extractLsb' 20 4 = 8#4 ∧
        (cw.extractLsb' 0 3 = 6#3 ∨ cw.extractLsb' 0 3 = 7#3 ∨ cw.extractLsb' 3 2 = 3#2 ∨
          (cw.extractLsb' 3 2 = 2#2 ∧ cw.extractLsb' 0 3 = 5#3))) ∨
      (cw.extractLsb' 20 4 ∈ [1#4, 2#4, 3#4, 4#4] ∧ admitRaw = false)) ∧
  (∀ (admitRaw : Bool) (cw : CmdWord), (∃ e, decode admitRaw cw = .error e) → RefusedWord admitRaw cw)

/-- The numbers of legal words (30_encoding.md R55, 95_test_vectors.md V2): 198930 with `ADMIT_RAW`, 18 without. -/
def Obligations.LegalWordCount : Prop :=
  (∃ l : List CmdWord, l.Nodup ∧ l.length = 198930 ∧ ∀ cw, cw ∈ l ↔ ∃ i, decode true cw = .ok i) ∧
  (∃ l : List CmdWord, l.Nodup ∧ l.length = 18 ∧ ∀ cw, cw ∈ l ↔ ∃ i, decode false cw = .ok i)

/-- 30_encoding.md R60: HAND_OPEN and APPLY 0, 0x03, 0x02, and CLRF and STOPF, have the same effect in every state; the decoder
keeps them apart. -/
def Obligations.TwoSpellingsOneEffect : Prop :=
  (∀ s, exec .handOpen s = exec (.apply 0 0x03 0x02) s) ∧
  (∀ bi sm s, exec (.clrf bi sm) s = exec (.stopf bi sm) s) ∧
  decode true 0x800008#24 = .ok .handOpen ∧ decode true 0x300302#24 = .ok (.apply 0 0x03 0x02) ∧
  (∀ bi sm, bi ≠ 3#2 → decode true (encode (.clrf bi sm)) = .ok (.clrf bi sm) ∧
    decode true (encode (.stopf bi sm)) = .ok (.stopf bi sm) ∧ encode (.clrf bi sm) ≠ encode (.stopf bi sm))

/-! ## The step -/

/-- A step with a legal word at the port is that command's `exec`, with the word taken off the host's list. -/
def Obligations.StepRunsTheDecodedCommand : Prop :=
  ∀ (s : State) (cw : CmdWord) (rest : List HostAct) (i : Instr),
    s.inFlight = false → s.host = .command cw :: rest → decode true cw = .ok i → step s = exec i { s with host := rest }

/-- 60_exceptions.md R93: an illegal word is accepted like any word and ends with status 2; buffer, `q` and `T` stay, no frame is
sent, and the block is ready. -/
def Obligations.IllegalWordChangesNothing : Prop :=
  ∀ (s : State) (cw : CmdWord) (rest : List HostAct) (e : Illegal),
    Ready s → s.host = .command cw :: rest → decode true cw = .error e →
    ∃ t, step s = .next t ∧ t.host = rest ∧ t.buf = s.buf ∧ t.q = s.q ∧ t.log = s.log ∧ t.dev = s.dev ∧
      t.answers = s.answers ∧ t.draws = s.draws ∧ t.armFault = s.armFault ∧ t.attached = s.attached ∧
      t.rspStatus = some 2#2 ∧ t.statuses = s.statuses ++ [.illegalCommand] ∧ t.cmdReady = true ∧ t.txValid = false

/-- A raw operation with `BI = 3` raises IllegalCommand (20_memory.md R36): as a word, never wrapping, and no row of `DESC` has
such an index. The first clause, `exec` of a command built by hand that no word decodes to, is the model's reading (log 14). -/
def Obligations.ByteIndexThreeIsIllegal : Prop :=
  (∀ (sm vm : Byte) (s : State), Ready s →
    ∀ i ∈ [Instr.clrf 3 sm, .setf 3 vm, .apply 3 sm vm, .stopf 3 sm], ∃ t, exec i s = .next t ∧ Illegalled s t) ∧
  (∀ (admitRaw : Bool) (cw : CmdWord),
    cw.extractLsb' 20 4 ∈ [1#4, 2#4, 3#4, 4#4] → cw.extractLsb' 16 2 = 3#2 → RefusedWord admitRaw cw) ∧
  (∀ seg, (descriptor seg).bi.toNat ∈ [0, 1, 2])

/-- 70_reset_and_hazards.md R109: a reset between commands zeroes the buffer and `q`, leaves the block ready with no response and
no frame, takes no command and sends nothing: no sample of the transport is taken and the log (restarted, 10_state.md R26) is
empty. It leaves the same block whatever was there before. What it leaves around the block is the model's choice:
`ResetLeavesTheSurroundings`. -/
def Obligations.ResetClearsTheBlock : Prop :=
  ∀ (s : State) (rest : List HostAct), s.inFlight = false → (s.host = .reset :: rest ∨ s.host = .resetNow :: rest) →
    ∃ t, step s = .next t ∧ t.buf = ⟨0x00, 0x00, 0x00⟩ ∧ t.q = 0x000000#24 ∧ t.cmdReady = true ∧ t.rspValid = false ∧
      t.txValid = false ∧ t.log = [] ∧ t.host = rest ∧ t.answers = s.answers

/-- The values after reset (10_state.md section 7). That `rsp_status` and `tx_data` have no value while not valid is log 11. -/
def Obligations.ResetValues : Prop :=
  State.reset.buf = ⟨0x00, 0x00, 0x00⟩ ∧ (∀ seg, fieldState State.reset.buf seg = .stopped) ∧
  State.reset.buf.inv = true ∧ State.reset.q = 0x000000#24 ∧ State.reset.cmdReady = true ∧
  State.reset.rspValid = false ∧ State.reset.txValid = false ∧ State.reset.rspStatus = none ∧
  State.reset.txData = none ∧ State.reset.log = [] ∧ (∀ frame, State.reset.dev ≠ .took frame)

/-- After reset the block does nothing until the first command (70_reset_and_hazards.md R111): with nothing from the host a step
only ends the response. (That a response lasts one step is log 17.) -/
def Obligations.IdleUntilACommand : Prop :=
  ∀ s : State, s.inFlight = false → s.host = [] → step s = .next { s with rsp := none }

/-- 60_exceptions.md R98: a command whose frame meets a silent transport never ends: no status, no log entry, `cmd_ready` low,
for any number of steps, whatever commands the host has waiting. -/
def Obligations.SilentTransportBlocksForever : Prop :=
  ∀ (i : Instr) (s : State), i.wf = true → Ready s → s.txSample = .silent → (∀ rest, s.host ≠ .resetNow :: rest) →
    ∃ t, exec i s = .next t ∧ Waiting s t ∧ t.cmdReady = false ∧ ∀ k, runWith true k t = .next t

/-- A command in progress ends with the transport's answer, from the buffer it wrote, and only then (20_memory.md R42, R43 (d));
while the transport is quiet nothing but its sample is used up. That a wait takes one sample a step (log 3) and that the step in
which the answer ends it takes no new word from the host (log 20) are the model's. -/
def Obligations.LateAnswerEndsTheCommand : Prop :=
  ∀ s : State, s.inFlight = true → (∀ rest, s.host ≠ .resetNow :: rest) →
    (∀ a, s.txSample = .answered a → ∃ t, step s = .next t ∧ t.buf = s.buf ∧ Completed s t a) ∧
    (s.txSample = .quiet → step s = .next { s with answers := s.answers.tail }) ∧
    (s.txSample = .silent → step s = .next s)

/-- While a command is in progress no other is accepted and no buffer byte changes (20_memory.md R38): the host's acts wait. That
they wait on the step whose answer ends the command too is the model's choice (log 20), and that `exec` at a busy port leaves the
state as it is, is its reading (log 13). -/
def Obligations.OneCommandAtATime : Prop :=
  ∀ s : State, s.inFlight = true →
    (∀ t, step s = .next t → t.host = s.host ∧ t.buf = s.buf) ∧
    (∀ i, s.attached = true → exec i s = .next s)

/-- A reset during a command is refused (93 U7, 60_exceptions.md R101): the model's form of it is the act `resetNow` (log 9). -/
def Obligations.ResetDuringACommandIsRefused : Prop :=
  ∀ (s : State) (rest : List HostAct), s.inFlight = true → s.host = .resetNow :: rest →
    step s = .refused .resetDuringCommand

/-- With no transport attached a command has no meaning and is refused (60_exceptions.md R99, 92 D23); log 15 takes every word to
be a command issued. -/
def Obligations.NoTransportNoMeaning : Prop :=
  ∀ s : State, s.attached = false →
    (∀ i, exec i s = .refused .noTransport) ∧
    (∀ cw rest, s.inFlight = false → s.host = .command cw :: rest → step s = .refused .noTransport)

/-- The machine stops in two ways only, both named: every other step has a next state. -/
def Obligations.StepStopsInTwoWaysOnly : Prop :=
  ∀ s : State, (∃ t, step s = .next t) ∨
    (step s = .refused .noTransport ∧ s.attached = false ∧ ∃ cw rest, s.host = .command cw :: rest) ∨
    (step s = .refused .resetDuringCommand ∧ s.inFlight = true ∧ ∃ rest, s.host = .resetNow :: rest)

/-! ## Every command -/

/-- 00_scope.md R10: every legal command mutates, then sends exactly one frame, the whole buffer after its write, and ends with
the status of the answer; an illegal word sends none. -/
def Obligations.EveryCommandSendsOneFrame : Prop :=
  (∀ i : Instr, i.wf = true → Effect i (fun _ _ => True)) ∧
  (∀ (admitRaw : Bool) (cw : CmdWord) (e : Illegal), decode admitRaw cw = .error e → RefusedWord admitRaw cw)

/-- Beside the buffer a command leaves the host's acts and the premise alone and appends at most one log entry and one status. -/
def Obligations.CommandsKeepTheRest : Prop :=
  ∀ (i : Instr) (s t : State), exec i s = .next t → RestKept s t

/-- 60_exceptions.md R91: a command ends with code 0, 1 or 2, as the transport answered or the word was illegal; code 3 is never
on `rsp_status`; an illegal command writes nothing and sends nothing. -/
def Obligations.StatusCodes : Prop :=
  (∀ (i : Instr) (s t : State), i.wf = true → Ready s → exec i s = .next t →
    (s.txSample = .answered .ok → t.rspStatus = some 0#2 ∧ t.log = s.log ++ [⟨t.buf, .ok⟩]) ∧
    (s.txSample = .answered .err → t.rspStatus = some 1#2 ∧ t.log = s.log ++ [⟨t.buf, .err⟩])) ∧
  (∀ (cw : CmdWord) (e : Illegal) (s t : State) (rest : List HostAct), Ready s → s.host = .command cw :: rest →
    decode true cw = .error e → step s = .next t → t.rspStatus = some 2#2 ∧ t.buf = s.buf ∧ t.log = s.log) ∧
  (∀ s : State, s.rspStatus ≠ some 3#2)

/-- 60_exceptions.md R95: on `err` every legal command, STOPALL and unchanged buffers among them, ends with status 1, keeps its
write (the buffer is what `ok` would have left), logs the failed frame, and leaves the device image unspecified. -/
def Obligations.TransportErrorKeepsTheWrite : Prop :=
  ∀ (i : Instr) (s : State) (rest : List TxSample), i.wf = true → Ready s →
    ∃ t t', exec i { s with answers := .answered .err :: rest } = .next t ∧
      exec i { s with answers := .answered .ok :: rest } = .next t' ∧
      t.buf = t'.buf ∧ t.q = t'.q ∧ t.rspStatus = some 1#2 ∧ t.log = s.log ++ [⟨t.buf, .err⟩] ∧
      (∃ k, t.dev = .unspecified k)

/-- After a TransportError the block is ordinary (60_exceptions.md R97): ready, it runs any next command, and NOPSEND or a
repetition answered `ok` puts the arm back in step without changing the buffer. "Any" takes in the commands with `BI = 3`, by
the model's reading (log 14). -/
def Obligations.BlockLivesOnAfterTransportError : Prop :=
  ∀ (i : Instr) (s t : State), i.wf = true → Ready s → s.txSample = .answered .err → exec i s = .next t →
    Ready t ∧ (∀ j : Instr, ∃ u, exec j t = .next u) ∧
    (t.txSample = .answered .ok → ∀ j ∈ [Asm.nopSend, i],
      ∃ u, exec j t = .next u ∧ u.buf = t.buf ∧ u.dev = .took t.buf ∧ u.rspStatus = some 0#2)

/-- The transport's answers never reach the buffer (60_exceptions.md R95, 70_reset_and_hazards.md R124 "whatever the transport
answered"): two ready blocks with equal buffers run any command to equal buffers (with `BI = 3` by log 14). -/
def Obligations.AnswersNeverReachTheBuffer : Prop :=
  ∀ (i : Instr) (s s' : State), Ready s → Ready s' → s.buf = s'.buf →
    ∃ t t', exec i s = .next t ∧ exec i s' = .next t' ∧ t.buf = t'.buf

/-- The same over whole runs: with a transport that answers every frame, what it answers never changes the buffers a host's acts
produce, nor which act comes next. -/
def Obligations.RunsAgreeWhateverIsAnswered : Prop :=
  ∀ (admitRaw : Bool) (k : Nat) (s s' : State), Ready s → Ready s' → Answering s → Answering s' →
    s.buf = s'.buf → s.host = s'.host →
    ∃ t t', runWith admitRaw k s = .next t ∧ runWith admitRaw k s' = .next t' ∧
      t.buf = t'.buf ∧ t.host = t'.host ∧ Ready t ∧ Ready t'

/-- The device image is no part of the block (10_state.md R27): nothing but the image and its recorded fault depends on it. -/
def Obligations.DeviceImageIsNeverRead : Prop :=
  ∀ (s t : State) (d : DevImage) (f : Bool), step s = .next t →
    ∃ t', step { s with dev := d, armFault := f } = .next t' ∧ { t' with dev := t.dev, armFault := t.armFault } = t

/-! ## The field operations -/

/-- 40_field_operations.md R63: CLRF. -/
def Obligations.ClrfRule : Prop :=
  (∀ (bi : BitVec 2) (sm : Byte), bi ≠ 3#2 →
    decode true (0x100000#24 ||| (bi.setWidth 24 <<< 16) ||| (sm.setWidth 24 <<< 8)) = .ok (.clrf bi sm) ∧
    Effect (.clrf bi sm) (ByteRewritten bi (fun k x => if sm.getLsbD k then false else x))) ∧
  (∀ (admitRaw : Bool) (cw : CmdWord), cw.extractLsb' 20 4 = 1#4 →
    (cw.extractLsb' 16 2 = 3#2 ∨ cw.extractLsb' 18 2 ≠ 0#2 ∨ cw.extractLsb' 0 8 ≠ 0#8 ∨ admitRaw = false) →
    RefusedWord admitRaw cw)

/-- 40_field_operations.md R64: SETF. -/
def Obligations.SetfRule : Prop :=
  (∀ (bi : BitVec 2) (vm : Byte), bi ≠ 3#2 →
    decode true (0x200000#24 ||| (bi.setWidth 24 <<< 16) ||| vm.setWidth 24) = .ok (.setf bi vm) ∧
    Effect (.setf bi vm) (ByteRewritten bi (fun k x => if vm.getLsbD k then true else x))) ∧
  (∀ (admitRaw : Bool) (cw : CmdWord), cw.extractLsb' 20 4 = 2#4 →
    (cw.extractLsb' 16 2 = 3#2 ∨ cw.extractLsb' 18 2 ≠ 0#2 ∨ cw.extractLsb' 8 8 ≠ 0#8 ∨ admitRaw = false) →
    RefusedWord admitRaw cw)

/-- 40_field_operations.md R65: APPLY; the set wins over the clear, and one frame shows both. -/
def Obligations.ApplyRule : Prop :=
  (∀ (bi : BitVec 2) (sm vm : Byte), bi ≠ 3#2 →
    decode true (0x300000#24 ||| (bi.setWidth 24 <<< 16) ||| (sm.setWidth 24 <<< 8) ||| vm.setWidth 24)
      = .ok (.apply bi sm vm) ∧
    Effect (.apply bi sm vm)
      (ByteRewritten bi (fun k x => if vm.getLsbD k then true else if sm.getLsbD k then false else x))) ∧
  (∀ (admitRaw : Bool) (cw : CmdWord), cw.extractLsb' 20 4 = 3#4 →
    (cw.extractLsb' 16 2 = 3#2 ∨ cw.extractLsb' 18 2 ≠ 0#2 ∨ admitRaw = false) → RefusedWord admitRaw cw)

/-- 40_field_operations.md R66: STOPF, which is CLRF under another name. -/
def Obligations.StopfRule : Prop :=
  (∀ (bi : BitVec 2) (sm : Byte), bi ≠ 3#2 →
    decode true (0x400000#24 ||| (bi.setWidth 24 <<< 16) ||| (sm.setWidth 24 <<< 8)) = .ok (.stopf bi sm) ∧
    Effect (.stopf bi sm) (ByteRewritten bi (fun k x => if sm.getLsbD k then false else x))) ∧
  (∀ bi sm s, exec (.stopf bi sm) s = exec (.clrf bi sm) s) ∧
  (∀ (admitRaw : Bool) (cw : CmdWord), cw.extractLsb' 20 4 = 4#4 →
    (cw.extractLsb' 16 2 = 3#2 ∨ cw.extractLsb' 18 2 ≠ 0#2 ∨ cw.extractLsb' 0 8 ≠ 0#8 ∨ admitRaw = false) →
    RefusedWord admitRaw cw)

/-- 40_field_operations.md R67: STOPALL zeroes all 24 bits and sends one frame, whatever `ADMIT_RAW` is; the six individual stops
clear the allocated bits only and send six. -/
def Obligations.StopAllRule : Prop :=
  (∀ admitRaw, decode admitRaw 0x500000#24 = .ok .stopAll) ∧
  Effect .stopAll (fun _ b' => b' = ⟨0x00, 0x00, 0x00⟩ ∧ b'.inv = true ∧ ∀ seg, fieldState b' seg = .stopped) ∧
  (∀ (admitRaw : Bool) (cw : CmdWord), cw.extractLsb' 20 4 = 5#4 → cw.extractLsb' 0 20 ≠ 0#20 → RefusedWord admitRaw cw) ∧
  (∀ s : State, Ready s → Answering s →
    ∃ t, execAll [.handStop, .wristStop, .elbowStop, .shoulderStop, .baseStop, .ledOff] s = .next t ∧
      t.buf = ⟨0x00, s.buf.b1 &&& 0xFC, s.buf.b2 &&& 0xFE⟩ ∧ t.log.length = s.log.length + 6)

/-- The frame of the raw operations: only the byte their `BI` names is written, in it only the bits the masks cover, and
beside it only the records (`armFault` among them, log 6). The byte is found by the function the meanings use, `ByteIndex.ofBits`. -/
def Obligations.RawOperationsFrame : Prop :=
  ∀ (bi : BitVec 2) (sm vm : Byte) (s t : State),
    (exec (.clrf bi sm) s = .next t ∨ exec (.setf bi vm) s = .next t ∨ exec (.apply bi sm vm) s = .next t ∨
      exec (.stopf bi sm) s = .next t) →
    (∀ j, ByteIndex.ofBits bi ≠ some j → t.buf.read j = s.buf.read j) ∧
    (∀ j k, ByteIndex.ofBits bi = some j → (sm ||| vm).getLsbD k = false →
      (t.buf.read j).getLsbD k = (s.buf.read j).getLsbD k) ∧
    RestKept s t

/-- 40_field_operations.md R68: a command leaves every bit outside its masks alone; two commands whose masks are disjoint, or
that act on different bytes, commute on the buffer; STOPALL alone has no isolation. -/
def Obligations.FieldIsolation : Prop :=
  (∀ (i : Instr) (s t : State), exec i s = .next t →
    ∀ j, t.buf.read j &&& ~~~(i.footprint.read j) = s.buf.read j &&& ~~~(i.footprint.read j)) ∧
  (∀ (i i' : Instr) (s t u t' u' : State), Ready s → Answering s →
    (∀ j, i.footprint.read j &&& i'.footprint.read j = 0#8) →
    exec i s = .next t → exec i' t = .next u → exec i' s = .next t' → exec i t' = .next u' → u.buf = u'.buf) ∧
  (∀ act seg i, namedInstr act seg = some i → i.footprint = Buffer.zero.write (descriptor seg).bi (descriptor seg).sm) ∧
  (∀ seg seg', seg ≠ seg' → (descriptor seg).bi = (descriptor seg').bi → (descriptor seg).sm &&& (descriptor seg').sm = 0#8)

/-- 40_field_operations.md R69: APPLY leaves the buffer of CLRF then SETF, with one frame where the pair sends two, the first of
them showing the cleared byte. -/
def Obligations.ApplyIsClearThenSet : Prop :=
  ∀ (bi : BitVec 2) (sm vm : Byte) (j : ByteIndex) (s : State), ByteIndex.ofBits bi = some j → Ready s → Answering s →
    ∃ t u v a b c, exec (.apply bi sm vm) s = .next t ∧ exec (.clrf bi sm) s = .next u ∧ exec (.setf bi vm) u = .next v ∧
      v.buf = t.buf ∧
      t.log = s.log ++ [⟨t.buf, a⟩] ∧ v.log = s.log ++ [⟨u.buf, b⟩, ⟨v.buf, c⟩] ∧
      u.buf = s.buf.write j (s.buf.read j &&& ~~~sm) ∧ t.buf = s.buf.write j ((s.buf.read j &&& ~~~sm) ||| vm)

/-! ## The segment commands and the LED -/

/-- 41_segment_commands.md R71 to R73: HAND_STOP, HAND_OPEN, HAND_CLOSE. -/
def Obligations.HandRules : Prop :=
  NamedRule .handStop 0x800000 (.stopf 0 0x03) (fun b b' => b' = ⟨b.b0 &&& 0xFC, b.b1, b.b2⟩ ∧
    b'.b0.extractLsb' 0 2 = 0b00#2 ∧ b'.b0.extractLsb' 2 6 = b.b0.extractLsb' 2 6) ∧
  NamedRule .handOpen 0x800008 (.apply 0 0x03 0x02) (fun b b' => b' = ⟨(b.b0 &&& 0xFC) ||| 0x02, b.b1, b.b2⟩ ∧
    b'.b0.extractLsb' 0 2 = 0b10#2 ∧ b'.b0.extractLsb' 2 6 = b.b0.extractLsb' 2 6) ∧
  NamedRule .handClose 0x800010 (.apply 0 0x03 0x01) (fun b b' => b' = ⟨(b.b0 &&& 0xFC) ||| 0x01, b.b1, b.b2⟩ ∧
    b'.b0.extractLsb' 0 2 = 0b01#2 ∧ b'.b0.extractLsb' 2 6 = b.b0.extractLsb' 2 6)

/-- 41_segment_commands.md R74 to R76: WRIST_STOP, WRIST_UP, WRIST_DOWN. -/
def Obligations.WristRules : Prop :=
  NamedRule .wristStop 0x800001 (.stopf 0 0x0C) (fun b b' => b' = ⟨b.b0 &&& 0xF3, b.b1, b.b2⟩ ∧
    b'.b0.extractLsb' 2 2 = 0b00#2) ∧
  NamedRule .wristUp 0x800009 (.apply 0 0x0C 0x04) (fun b b' => b' = ⟨(b.b0 &&& 0xF3) ||| 0x04, b.b1, b.b2⟩ ∧
    b'.b0.extractLsb' 2 2 = 0b01#2) ∧
  NamedRule .wristDown 0x800011 (.apply 0 0x0C 0x08) (fun b b' => b' = ⟨(b.b0 &&& 0xF3) ||| 0x08, b.b1, b.b2⟩ ∧
    b'.b0.extractLsb' 2 2 = 0b10#2)

/-- 41_segment_commands.md R77 to R79: ELBOW_STOP, ELBOW_UP, ELBOW_DOWN. -/
def Obligations.ElbowRules : Prop :=
  NamedRule .elbowStop 0x800002 (.stopf 0 0x30) (fun b b' => b' = ⟨b.b0 &&& 0xCF, b.b1, b.b2⟩ ∧
    b'.b0.extractLsb' 4 2 = 0b00#2) ∧
  NamedRule .elbowUp 0x80000A (.apply 0 0x30 0x10) (fun b b' => b' = ⟨(b.b0 &&& 0xCF) ||| 0x10, b.b1, b.b2⟩ ∧
    b'.b0.extractLsb' 4 2 = 0b01#2) ∧
  NamedRule .elbowDown 0x800012 (.apply 0 0x30 0x20) (fun b b' => b' = ⟨(b.b0 &&& 0xCF) ||| 0x20, b.b1, b.b2⟩ ∧
    b'.b0.extractLsb' 4 2 = 0b10#2)

/-- 41_segment_commands.md R80 to R82: SHOULDER_STOP, SHOULDER_UP, SHOULDER_DOWN. -/
def Obligations.ShoulderRules : Prop :=
  NamedRule .shoulderStop 0x800003 (.stopf 0 0xC0) (fun b b' => b' = ⟨b.b0 &&& 0x3F, b.b1, b.b2⟩ ∧
    b'.b0.extractLsb' 6 2 = 0b00#2) ∧
  NamedRule .shoulderUp 0x80000B (.apply 0 0xC0 0x80) (fun b b' => b' = ⟨(b.b0 &&& 0x3F) ||| 0x80, b.b1, b.b2⟩ ∧
    b'.b0.extractLsb' 6 2 = 0b10#2) ∧
  NamedRule .shoulderDown 0x800013 (.apply 0 0xC0 0x40) (fun b b' => b' = ⟨(b.b0 &&& 0x3F) ||| 0x40, b.b1, b.b2⟩ ∧
    b'.b0.extractLsb' 6 2 = 0b01#2)

/-- 41_segment_commands.md R83 to R85: BASE_STOP, BASE_CW, BASE_CCW; the unallocated bits are not touched. -/
def Obligations.BaseRules : Prop :=
  NamedRule .baseStop 0x800004 (.stopf 1 0x03) (fun b b' => b' = ⟨b.b0, b.b1 &&& 0xFC, b.b2⟩ ∧
    b'.b1.extractLsb' 0 2 = 0b00#2 ∧ b'.b1.extractLsb' 2 6 = b.b1.extractLsb' 2 6) ∧
  NamedRule .baseCw 0x80000C (.apply 1 0x03 0x01) (fun b b' => b' = ⟨b.b0, (b.b1 &&& 0xFC) ||| 0x01, b.b2⟩ ∧
    b'.b1.extractLsb' 0 2 = 0b01#2) ∧
  NamedRule .baseCcw 0x800014 (.apply 1 0x03 0x02) (fun b b' => b' = ⟨b.b0, (b.b1 &&& 0xFC) ||| 0x02, b.b2⟩ ∧
    b'.b1.extractLsb' 0 2 = 0b10#2)

/-- 42_led_commands.md R88, R89: LED_ON, LED_OFF; an LED already on, or off, keeps its buffer and sends its frame again. -/
def Obligations.LedRules : Prop :=
  NamedRule .ledOn 0x80000D (.apply 2 0x01 0x01) (fun b b' => b' = ⟨b.b0, b.b1, (b.b2 &&& 0xFE) ||| 0x01⟩ ∧
    b'.b2.extractLsb' 0 1 = 0b1#1 ∧ b'.b2.extractLsb' 1 7 = b.b2.extractLsb' 1 7 ∧
    (b.b2.extractLsb' 0 1 = 0b1#1 → b' = b)) ∧
  NamedRule .ledOff 0x800005 (.stopf 2 0x01) (fun b b' => b' = ⟨b.b0, b.b1, b.b2 &&& 0xFE⟩ ∧
    b'.b2.extractLsb' 0 1 = 0b0#1 ∧ b'.b2.extractLsb' 1 7 = b.b2.extractLsb' 1 7 ∧
    (b.b2.extractLsb' 0 1 = 0b0#1 → b' = b))

/-- What must not be fixed (42_led_commands.md R90): LED_OFF sets no bit anywhere, and `0x800015` is no second spelling of it. -/
def Obligations.LedOffSetsNothing : Prop :=
  (∀ (s t : State), exec .ledOff s = .next t → ∀ j, t.buf.read j &&& ~~~(s.buf.read j) = 0#8) ∧
  (∀ admitRaw, RefusedWord admitRaw 0x800015#24)

/-- The frame of the named commands: only the byte that `DESC` gives the segment is written, in it only the field, and beside it
only the records; that a recorded fault of the device image stays recorded is the model's choice (log 6). The byte is
`(descriptor seg).bi`, as the meanings use it. -/
def Obligations.NamedCommandsFrame : Prop :=
  ∀ (act : Action) (seg : Segment) (i : Instr) (s t : State), namedInstr act seg = some i → exec i s = .next t →
    (∀ j, j ≠ (descriptor seg).bi → t.buf.read j = s.buf.read j) ∧
    (∀ k, (descriptor seg).sm.getLsbD k = false →
      (t.buf.read (descriptor seg).bi).getLsbD k = (s.buf.read (descriptor seg).bi).getLsbD k) ∧
    RestKept s t

/-- The state machine of a field (10_state.md R19): from any state, invalid too, a move gives its direction and a stop gives
stopped; STOPALL stops every field; no command changes another field; a move or a stop already in force changes nothing. -/
def Obligations.FieldStateMachine : Prop :=
  ∀ (s t : State), Ready s →
    (∀ act seg i, namedInstr act seg = some i → exec i s = .next t →
      fieldState t.buf seg = (match act with | .stop => .stopped | .valueA => .directionA | .valueB => .directionB) ∧
      (∀ seg', seg' ≠ seg → fieldState t.buf seg' = fieldState s.buf seg') ∧
      (fieldState s.buf seg = fieldState t.buf seg → t.buf = s.buf)) ∧
    (exec .stopAll s = .next t → ∀ seg, fieldState t.buf seg = .stopped)

/-- 70_reset_and_hazards.md R123: (a) field isolation within a byte, (b) APPLY is idempotent on the buffer for any masks,
(c) a move from A to B leaves exactly B's bits, (d) STOPALL always gives the all-zero buffer. -/
def Obligations.SourceProperties : Prop :=
  (∀ (act : Action) (seg seg' : Segment) (i : Instr) (s t : State), namedInstr act seg = some i → seg ≠ seg' →
    (descriptor seg).bi = (descriptor seg').bi → exec i s = .next t →
    t.buf.read (descriptor seg').bi &&& (descriptor seg').sm = s.buf.read (descriptor seg').bi &&& (descriptor seg').sm) ∧
  (∀ (bi : BitVec 2) (sm vm : Byte) (s t u : State), exec (.apply bi sm vm) s = .next t → exec (.apply bi sm vm) t = .next u →
    u.buf = t.buf) ∧
  (∀ (seg : Segment) (vb : Byte) (i : Instr) (s : State), (descriptor seg).vb = some vb → namedInstr .valueB seg = some i →
    Ready s → fieldState s.buf seg = .directionA → ∃ t, exec i s = .next t ∧
      t.buf.read (descriptor seg).bi &&& (descriptor seg).sm = vb ∧ vb &&& (descriptor seg).va = 0#8) ∧
  (∀ s : State, Ready s → ∃ t, exec .stopAll s = .next t ∧ t.buf = ⟨0x00, 0x00, 0x00⟩)

/-- Every command is idempotent on the buffer and not on the log (20_memory.md R39): repeated, it leaves the same buffer and, the
transport answering, a second frame equal to the first. -/
def Obligations.RepeatedCommandsSendAgain : Prop :=
  ∀ (i : Instr) (s : State), i.wf = true → Ready s → Answering s →
    ∃ t u a b, exec i s = .next t ∧ exec i t = .next u ∧ u.buf = t.buf ∧
      u.log = s.log ++ [⟨t.buf, a⟩, ⟨t.buf, b⟩]

/-- "Simultaneous" motion (41_segment_commands.md R86): from the all-zero buffer any sequence of direction commands on pairwise
different segments of byte 0 leaves in it the OR of their value masks, in any order, one frame for each. -/
def Obligations.SimultaneousMotion : Prop :=
  ∀ (l : List (Action × Segment)) (is : List Instr) (s : State),
    l.map (fun p => namedInstr p.1 p.2) = is.map some → (∀ p ∈ l, p.1 ≠ .stop) → (l.map Prod.snd).Nodup →
    (∀ p ∈ l, (descriptor p.2).bi = .byte0) → Ready s → Answering s → s.buf = ⟨0x00, 0x00, 0x00⟩ →
    ∃ t, execAll is s = .next t ∧ t.log.length = s.log.length + is.length ∧
      t.buf = ⟨(l.map (fun p => if p.1 = .valueA then (descriptor p.2).va else (descriptor p.2).vb.getD 0x00)).foldr
        (fun x y => x ||| y) 0x00, 0x00, 0x00⟩

/-! ## Invariants -/

/-- 10_state.md R20: what `INV` says; it holds at reset, is kept by every command but SETF and APPLY, these two can break it, and
486 buffers have it. -/
def Obligations.InvKeptByAllButSetfAndApply : Prop :=
  (∀ b : Buffer, b.inv = true ↔
    (∀ seg, fieldState b seg ≠ .invalid) ∧ b.b1 &&& 0xFC = 0x00 ∧ b.b2 &&& 0xFE = 0x00) ∧
  State.reset.buf.inv = true ∧
  (∀ (i : Instr) (s t : State), (∀ bi vm, i ≠ .setf bi vm) → (∀ bi sm vm, i ≠ .apply bi sm vm) →
    s.buf.inv = true → exec i s = .next t → t.buf.inv = true) ∧
  (∃ bi vm s t, s.buf.inv = true ∧ exec (.setf bi vm) s = .next t ∧ t.buf.inv = false) ∧
  (∃ bi sm vm s t, s.buf.inv = true ∧ exec (.apply bi sm vm) s = .next t ∧ t.buf.inv = false) ∧
  (∃ l : List Buffer, l.Nodup ∧ l.length = 486 ∧ ∀ b, b ∈ l ↔ b.inv = true)

/-- With `ADMIT_RAW = false` (30_encoding.md R61): raw words are illegal, all others decode as before, and every step keeps the
buffer invariant and never shows the arm an invalid field (93 U1). -/
def Obligations.NamedCommandsKeepTheArmSafe : Prop :=
  (∀ cw : CmdWord, cw.extractLsb' 20 4 ∈ [1#4, 2#4, 3#4, 4#4] → RefusedWord false cw) ∧
  (∀ cw : CmdWord, cw.extractLsb' 20 4 ∉ [1#4, 2#4, 3#4, 4#4] → decode false cw = decode true cw) ∧
  (∀ s t : State, ArmSafe s → stepWith false s = .next t → ArmSafe t)

/-- Every buffer with `INV` is reached from reset by at most six named commands (70_reset_and_hazards.md R122). That the commands
run there, and are answered at once, rests on the model's choices for `State.reset`: a transport attached (log 7) and no samples
listed (log 2). -/
def Obligations.EveryInvBufferIsReached : Prop :=
  ∀ b : Buffer, b.inv = true →
    ∃ is : List Instr, is.length ≤ 6 ∧ (∀ i ∈ is, ∃ act seg, namedInstr act seg = some i) ∧
      ∃ t, execAll is State.reset = .next t ∧ t.buf = b

/-- The frame law, the status law and the image law (70_reset_and_hazards.md R124, 60_exceptions.md R91, 10_state.md R27) are
kept by every step from every state that has them. -/
def Obligations.RecordLawsKeptByEveryStep : Prop :=
  ∀ (admitRaw : Bool) (s t : State), FrameLaw s → StatusLaw s → ImageLaw s → stepWith admitRaw s = .next t →
    FrameLaw t ∧ StatusLaw t ∧ ImageLaw t

/-- The three laws hold after reset. That the statuses are empty there, as the status law needs, is the model's choice
(log 10). -/
def Obligations.RecordLawsAtReset : Prop :=
  FrameLaw State.reset ∧ StatusLaw State.reset ∧ ImageLaw State.reset

/-- What a step may do to the log (10_state.md R26): nothing, one entry that carries the buffer and whose answer is the response,
or, at a reset, restart it. -/
def Obligations.OneLogEntryPerStep : Prop :=
  ∀ (admitRaw : Bool) (s t : State), stepWith admitRaw s = .next t →
    (t.log = s.log ∧ (t.rsp = none ∨ t.rsp = some .illegalCommand ∨ t.rsp = s.rsp)) ∨
    (∃ a, t.log = s.log ++ [⟨t.buf, a⟩] ∧ t.rsp = some a.status ∧ t.inFlight = false) ∨
    (t.log = [] ∧ t.buf = Config.resetValue ∧ ∃ rest, s.host = .reset :: rest ∨ s.host = .resetNow :: rest)

/-- 70_reset_and_hazards.md R124: after any `k` command words from the reset buffer with an empty log, whatever the transport
answered, `T` has one entry per legal word, the buffer equals the last frame (or the reset value), and earlier logs are
prefixes of later ones, so that entry `n` carries the buffer as it stood after the `n`-th legal command. -/
def Obligations.FrameLawOfRuns : Prop :=
  ∀ (ws : List CmdWord) (s : State), Ready s → Answering s → s.log = [] → s.buf = Config.resetValue →
    s.host = ws.map .command →
    ∀ k ≤ ws.length, ∃ t, runWith true k s = .next t ∧ Ready t ∧ FrameLaw t ∧
      t.log.length = ((ws.take k).filter (fun w => (decode true w).isOk)).length ∧
      t.statuses.length = s.statuses.length + k ∧
      ∀ j ≤ k, ∃ u, runWith true j s = .next u ∧ u.log <+: t.log

/-- The device image (10_state.md R27): after `ok` it is the frame, after `err` unspecified, and one later success brings it back
to the buffer. That a reset of the block leaves it follows R27 against 93 U10, the model's choice between the two (log 21). -/
def Obligations.DeviceImageRule : Prop :=
  (∀ (i : Instr) (s t : State), i.wf = true → Ready s → exec i s = .next t →
    (s.txSample = .answered .ok → t.dev = .took t.buf ∧ t.dev.bytes = t.buf) ∧
    (s.txSample = .answered .err → ∃ k, t.dev = .unspecified k ∧ t.dev.bytes = Config.freeImage k)) ∧
  (∀ (s t : State) (rest : List HostAct), s.inFlight = false → (s.host = .reset :: rest ∨ s.host = .resetNow :: rest) →
    step s = .next t → t.dev = s.dev) ∧
  (∀ frame, State.reset.dev ≠ .took frame)

/-- The fault of the device image is recorded exactly when a frame with an invalid field is answered `ok` (93 U1,
60_exceptions.md R107), and the block goes on; that the record is never cleared is log 6. -/
def Obligations.ArmFaultIsRecordedExactly : Prop :=
  ∀ (i : Instr) (s : State) (a : Answer), i.wf = true → Ready s → s.txSample = .answered a →
    ∃ t, exec i s = .next t ∧
      (t.armFault = true ↔ s.armFault = true ∨ (a = .ok ∧ ∃ seg, fieldState t.buf seg = .invalid))

/-- While its frame is unanswered a command leaves the arm unknown, as a fresh free value, and records no fault of it: the
model's choice (log 5, log 6). -/
def Obligations.UnansweredFrameLeavesTheArmUnknown : Prop :=
  ∀ (i : Instr) (s : State), i.wf = true → Ready s → (s.txSample = .quiet ∨ s.txSample = .silent) →
    ∃ t k, exec i s = .next t ∧ t.dev = .unspecified k ∧ s.draws ≤ k ∧ k < t.draws ∧ t.armFault = s.armFault

/-! ## Accesses and pins -/

/-- 20_memory.md R41: a byte write sets its byte and leaves the others; the whole-buffer accesses take the bytes in index
order. -/
def Obligations.BufferAccesses : Prop :=
  (∀ (b : Buffer) (i j : ByteIndex) (v : Byte), (b.write i v).read j = if j = i then v else b.read j) ∧
  (∀ (b : Buffer), b = ⟨b.read .byte0, b.read .byte1, b.read .byte2⟩) ∧
  (∀ (b : Buffer) (i : ByteIndex) (v : Byte) (a : Nat), a ≠ i.toNat →
    Memory.read (b.write i v).cells a = Memory.read b.cells a) ∧
  (∀ (b : Buffer) (i : ByteIndex) (v : Byte), Memory.read (b.write i v).cells i.toNat = v)

/-- 10_state.md R25: `q` shows the buffer at all times, byte 0 lowest; a command's write shows on it whatever the transport
answers, and before it answers; `tx_data` equals `q` while `tx_valid` is high. -/
def Obligations.LatchShowsTheBuffer : Prop :=
  (∀ s : State, s.q.extractLsb' 0 8 = s.buf.b0 ∧ s.q.extractLsb' 8 8 = s.buf.b1 ∧ s.q.extractLsb' 16 8 = s.buf.b2) ∧
  (∀ s : State, s.txValid = true → s.txData = some s.q) ∧
  (∀ (i : Instr) (s : State) (a : Answer) (rest : List TxSample), i.wf = true → Ready s →
    ∃ t t', exec i { s with answers := .answered a :: rest } = .next t ∧
      exec i { s with answers := .quiet :: rest } = .next t' ∧ t'.txValid = true ∧ t'.log = s.log ∧ t.q = t'.q ∧
      t'.txData = some t.q)

/-! ## Around a reset -/

/-- What a reset between commands leaves around the block, all the model's choice: the device image as it was (10_state.md R27,
against 93 U10; log 21), the record of its fault (log 6), the premise of a transport (log 7), and the statuses restarted
(log 10). -/
def Obligations.ResetLeavesTheSurroundings : Prop :=
  ∀ (s : State) (rest : List HostAct), s.inFlight = false → (s.host = .reset :: rest ∨ s.host = .resetNow :: rest) →
    ∃ t, step s = .next t ∧ t.dev = s.dev ∧ t.armFault = s.armFault ∧ t.attached = s.attached ∧ t.statuses = []
end

