-- ==== Sys2Proof/Laws/Operands.lean ====
section
/-! SUPPORT. The buffer as registers and as memory (spec 20_memory.md R41), and the structural facts of `DESC`
(10_state.md R18). -/

namespace Sys2Proof

/-! ## Reads and writes of a byte -/

@[simp] theorem Buffer.read_write_same (b : Buffer) (i : ByteIndex) (v : Byte) : (b.write i v).read i = v := by
  cases i <;> rfl

theorem Buffer.read_write_other (b : Buffer) (i j : ByteIndex) (v : Byte) (h : j ≠ i) : (b.write i v).read j = b.read j := by
  cases i <;> cases j <;> first | rfl | exact absurd rfl h

@[simp] theorem Buffer.write_read_same (b : Buffer) (i : ByteIndex) : b.write i (b.read i) = b := by
  cases i <;> rfl

@[simp] theorem Buffer.write_write_same (b : Buffer) (i : ByteIndex) (v w : Byte) : (b.write i v).write i w = b.write i w := by
  cases i <;> rfl

theorem Buffer.write_comm (b : Buffer) (i j : ByteIndex) (v w : Byte) (h : i ≠ j) :
    (b.write i v).write j w = (b.write j w).write i v := by
  cases i <;> cases j <;> first | rfl | exact absurd rfl h

/-- Two buffers with equal bytes are equal. -/
theorem Buffer.ext_read {b c : Buffer} (h : ∀ i, b.read i = c.read i) : b = c := by
  obtain ⟨b0, b1, b2⟩ := b
  obtain ⟨c0, c1, c2⟩ := c
  have h0 := h .byte0
  have h1 := h .byte1
  have h2 := h .byte2
  simp only [Buffer.read] at h0 h1 h2
  rw [h0, h1, h2]

@[simp] theorem Buffer.read_zero (i : ByteIndex) : Buffer.zero.read i = 0#8 := by
  cases i <;> rfl

theorem Buffer.zero_eq_resetValue : Buffer.zero = Config.resetValue := rfl

/-! ## The byte index of a raw operation -/

/-- `BI` names a location exactly when it is legal (20_memory.md R36). -/
theorem ByteIndex.ofBits_isSome (bi : BitVec 2) : (ByteIndex.ofBits bi).isSome = biLegal bi := by
  revert bi; decide

theorem ByteIndex.ofBits_three : ByteIndex.ofBits 3#2 = none := rfl

theorem ByteIndex.ofBits_of_legal {bi : BitVec 2} (h : biLegal bi = true) : ∃ i, ByteIndex.ofBits bi = some i :=
  Option.isSome_iff_exists.mp ((ByteIndex.ofBits_isSome bi).trans h)

/-! ## The memory view -/

/-- Reading the cell view reads the buffer. -/
theorem Buffer.read_cells (b : Buffer) (i : ByteIndex) : Memory.read b.cells i.toNat = b.read i := by
  obtain ⟨b0, b1, b2⟩ := b
  by_cases h0 : b0 = Memory.unlisted <;> by_cases h1 : b1 = Memory.unlisted <;> by_cases h2 : b2 = Memory.unlisted <;>
    cases i <;> simp [Buffer.cells, Memory.cell, Memory.read, Buffer.read, ByteIndex.toNat, h0, h1, h2]

/-- An address outside the buffer is listed by no view. -/
theorem Buffer.read_cells_outside (b : Buffer) (k : Nat) (h : 3 ≤ k) : Memory.read b.cells k = Memory.unlisted := by
  obtain ⟨b0, b1, b2⟩ := b
  have n0 : k ≠ 0 := by omega
  have n1 : k ≠ 1 := by omega
  have n2 : k ≠ 2 := by omega
  by_cases h0 : b0 = Memory.unlisted <;> by_cases h1 : b1 = Memory.unlisted <;> by_cases h2 : b2 = Memory.unlisted <;>
    simp [Buffer.cells, Memory.cell, Memory.read, h0, h1, h2, n0, n1, n2]

/-- The view of every buffer is in canonical form, so every write of the buffer keeps it. -/
theorem Buffer.cells_wf (b : Buffer) : Memory.wf b.cells = true := by
  obtain ⟨b0, b1, b2⟩ := b
  by_cases h0 : b0 = Memory.unlisted <;> by_cases h1 : b1 = Memory.unlisted <;> by_cases h2 : b2 = Memory.unlisted <;>
    simp [Buffer.cells, Memory.cell, Memory.wf, Memory.rising, Config.nBytes, h0, h1, h2]

/-- Equal memories are equal data. -/
theorem Buffer.cells_injective {b c : Buffer} (h : b.cells = c.cells) : b = c :=
  Buffer.ext_read fun i => by rw [← Buffer.read_cells b i, ← Buffer.read_cells c i, h]

/-- After reset nothing is listed. -/
theorem reset_cells : Machine.State.reset.buf.cells = [] := rfl

/-! ## `DESC` (10_state.md R18) -/

/-- R18 (a): within a byte the stop masks are disjoint. -/
theorem descriptor_disjoint (p q : Segment) (h : p ≠ q) (hb : (descriptor p).bi = (descriptor q).bi) :
    (descriptor p).sm &&& (descriptor q).sm = 0#8 := by
  cases p <;> cases q <;> first | exact absurd rfl h | exact absurd hb (by decide) | decide

/-- R18 (b): value A lies inside the stop mask. -/
theorem descriptor_va_inside (p : Segment) : (descriptor p).va &&& ~~~(descriptor p).sm = 0#8 := by
  cases p <;> decide

/-- R18 (b): value B lies inside the stop mask. -/
theorem descriptor_vb_inside (p : Segment) (v : Byte) (h : (descriptor p).vb = some v) : v &&& ~~~(descriptor p).sm = 0#8 := by
  cases p <;> simp only [descriptor, Option.some.injEq, reduceCtorEq] at h <;> subst h <;> decide

/-- R18 (c): a two-bit field is its two value masks, which are disjoint. -/
theorem descriptor_two_bit (p : Segment) (v : Byte) (h : (descriptor p).vb = some v) :
    (descriptor p).sm = (descriptor p).va ||| v ∧ (descriptor p).va &&& v = 0#8 := by
  cases p <;> simp only [descriptor, Option.some.injEq, reduceCtorEq] at h <;> subst h <;> decide

/-! ## The mask operators (00_scope.md R8) -/

/-- R8: the bits a clear covers are zero after it. -/
theorem clearBits_inside (sm x : Byte) : clearBits sm x &&& sm = 0#8 := by
  ext k hk; simp [clearBits]

/-- R8: the bits a clear does not cover stay. -/
theorem clearBits_outside (sm x : Byte) : clearBits sm x &&& ~~~sm = x &&& ~~~sm := by
  ext k hk; simp [clearBits]

/-- R8, first law of APPLY: clear-then-set is idempotent. -/
theorem clearThenSet_idem (sm vm x : Byte) : clearThenSet sm vm (clearThenSet sm vm x) = clearThenSet sm vm x := by
  ext k hk
  simp only [clearThenSet, setBits, clearBits, BitVec.getElem_or, BitVec.getElem_and, BitVec.getElem_not]
  cases vm[k] <;> cases sm[k] <;> cases x[k] <;> rfl

end Sys2Proof
end

