-- ==== Sys2Proof/Laws/State.lean ====
section
/-! SUPPORT. One lemma per field of State per update, so that no proof unfolds a record update. -/

namespace Sys2Proof.Machine

variable (s : State)

/-! ### takeSample -/

@[simp] theorem State.takeSample_buf : (s.takeSample).buf = s.buf := rfl
@[simp] theorem State.takeSample_rsp : (s.takeSample).rsp = s.rsp := rfl
@[simp] theorem State.takeSample_inFlight : (s.takeSample).inFlight = s.inFlight := rfl
@[simp] theorem State.takeSample_log : (s.takeSample).log = s.log := rfl
@[simp] theorem State.takeSample_statuses : (s.takeSample).statuses = s.statuses := rfl
@[simp] theorem State.takeSample_dev : (s.takeSample).dev = s.dev := rfl
@[simp] theorem State.takeSample_armFault : (s.takeSample).armFault = s.armFault := rfl
@[simp] theorem State.takeSample_attached : (s.takeSample).attached = s.attached := rfl
@[simp] theorem State.takeSample_host : (s.takeSample).host = s.host := rfl
@[simp] theorem State.takeSample_answers : (s.takeSample).answers = dropSample s.answers := rfl
@[simp] theorem State.takeSample_draws : (s.takeSample).draws = if s.answers.isEmpty then s.draws + 1 else s.draws := rfl

/-! ### recordAnswer -/

@[simp] theorem State.recordAnswer_buf (a : Answer) : (s.recordAnswer a).buf = s.buf := rfl
@[simp] theorem State.recordAnswer_rsp (a : Answer) : (s.recordAnswer a).rsp = s.rsp := rfl
@[simp] theorem State.recordAnswer_inFlight (a : Answer) : (s.recordAnswer a).inFlight = false := rfl
@[simp] theorem State.recordAnswer_log (a : Answer) : (s.recordAnswer a).log = s.log ++ [⟨s.buf, a⟩] := rfl
@[simp] theorem State.recordAnswer_statuses (a : Answer) : (s.recordAnswer a).statuses = s.statuses := rfl
@[simp] theorem State.recordAnswer_dev (a : Answer) : (s.recordAnswer a).dev = imageAfter a s.buf s.draws := rfl
@[simp] theorem State.recordAnswer_armFault (a : Answer) : (s.recordAnswer a).armFault = (s.armFault || armFaultBy a s.buf) := rfl
@[simp] theorem State.recordAnswer_attached (a : Answer) : (s.recordAnswer a).attached = s.attached := rfl
@[simp] theorem State.recordAnswer_host (a : Answer) : (s.recordAnswer a).host = s.host := rfl
@[simp] theorem State.recordAnswer_answers (a : Answer) : (s.recordAnswer a).answers = s.answers := rfl
@[simp] theorem State.recordAnswer_draws (a : Answer) : (s.recordAnswer a).draws = drawsAfter a s.draws := rfl

/-! ### respond -/

@[simp] theorem State.respond_buf (st : Status) : (s.respond st).buf = s.buf := rfl
@[simp] theorem State.respond_rsp (st : Status) : (s.respond st).rsp = some st := rfl
@[simp] theorem State.respond_inFlight (st : Status) : (s.respond st).inFlight = s.inFlight := rfl
@[simp] theorem State.respond_log (st : Status) : (s.respond st).log = s.log := rfl
@[simp] theorem State.respond_statuses (st : Status) : (s.respond st).statuses = s.statuses ++ [st] := rfl
@[simp] theorem State.respond_dev (st : Status) : (s.respond st).dev = s.dev := rfl
@[simp] theorem State.respond_armFault (st : Status) : (s.respond st).armFault = s.armFault := rfl
@[simp] theorem State.respond_attached (st : Status) : (s.respond st).attached = s.attached := rfl
@[simp] theorem State.respond_host (st : Status) : (s.respond st).host = s.host := rfl
@[simp] theorem State.respond_answers (st : Status) : (s.respond st).answers = s.answers := rfl
@[simp] theorem State.respond_draws (st : Status) : (s.respond st).draws = s.draws := rfl

/-! ### raiseIllegal -/

@[simp] theorem State.raiseIllegal_buf : (s.raiseIllegal).buf = s.buf := rfl
@[simp] theorem State.raiseIllegal_rsp : (s.raiseIllegal).rsp = some .illegalCommand := rfl
@[simp] theorem State.raiseIllegal_inFlight : (s.raiseIllegal).inFlight = s.inFlight := rfl
@[simp] theorem State.raiseIllegal_log : (s.raiseIllegal).log = s.log := rfl
@[simp] theorem State.raiseIllegal_statuses : (s.raiseIllegal).statuses = s.statuses ++ [.illegalCommand] := rfl
@[simp] theorem State.raiseIllegal_dev : (s.raiseIllegal).dev = s.dev := rfl
@[simp] theorem State.raiseIllegal_armFault : (s.raiseIllegal).armFault = s.armFault := rfl
@[simp] theorem State.raiseIllegal_attached : (s.raiseIllegal).attached = s.attached := rfl
@[simp] theorem State.raiseIllegal_host : (s.raiseIllegal).host = s.host := rfl
@[simp] theorem State.raiseIllegal_answers : (s.raiseIllegal).answers = s.answers := rfl
@[simp] theorem State.raiseIllegal_draws : (s.raiseIllegal).draws = s.draws := rfl

/-! ### finish -/

@[simp] theorem State.finish_buf (a : Answer) : (s.finish a).buf = s.buf := rfl
@[simp] theorem State.finish_rsp (a : Answer) : (s.finish a).rsp = some a.status := rfl
@[simp] theorem State.finish_inFlight (a : Answer) : (s.finish a).inFlight = false := rfl
@[simp] theorem State.finish_log (a : Answer) : (s.finish a).log = s.log ++ [⟨s.buf, a⟩] := rfl
@[simp] theorem State.finish_statuses (a : Answer) : (s.finish a).statuses = s.statuses ++ [a.status] := rfl
@[simp] theorem State.finish_dev (a : Answer) : (s.finish a).dev = imageAfter a s.buf s.draws := rfl
@[simp] theorem State.finish_armFault (a : Answer) : (s.finish a).armFault = (s.armFault || armFaultBy a s.buf) := rfl
@[simp] theorem State.finish_attached (a : Answer) : (s.finish a).attached = s.attached := rfl
@[simp] theorem State.finish_host (a : Answer) : (s.finish a).host = s.host := rfl
@[simp] theorem State.finish_answers (a : Answer) : (s.finish a).answers = s.answers := rfl
@[simp] theorem State.finish_draws (a : Answer) : (s.finish a).draws = drawsAfter a s.draws := rfl

/-! ### present -/

@[simp] theorem State.present_buf : (s.present).buf = s.buf := rfl
@[simp] theorem State.present_rsp : (s.present).rsp = none := rfl
@[simp] theorem State.present_inFlight : (s.present).inFlight = true := rfl
@[simp] theorem State.present_log : (s.present).log = s.log := rfl
@[simp] theorem State.present_statuses : (s.present).statuses = s.statuses := rfl
@[simp] theorem State.present_dev : (s.present).dev = .unspecified s.draws := rfl
@[simp] theorem State.present_armFault : (s.present).armFault = s.armFault := rfl
@[simp] theorem State.present_attached : (s.present).attached = s.attached := rfl
@[simp] theorem State.present_host : (s.present).host = s.host := rfl
@[simp] theorem State.present_answers : (s.present).answers = s.answers := rfl
@[simp] theorem State.present_draws : (s.present).draws = s.draws + 1 := rfl

/-! ### withBuf -/

@[simp] theorem State.withBuf_buf (b : Buffer) : (s.withBuf b).buf = b := rfl
@[simp] theorem State.withBuf_rsp (b : Buffer) : (s.withBuf b).rsp = s.rsp := rfl
@[simp] theorem State.withBuf_inFlight (b : Buffer) : (s.withBuf b).inFlight = s.inFlight := rfl
@[simp] theorem State.withBuf_log (b : Buffer) : (s.withBuf b).log = s.log := rfl
@[simp] theorem State.withBuf_statuses (b : Buffer) : (s.withBuf b).statuses = s.statuses := rfl
@[simp] theorem State.withBuf_dev (b : Buffer) : (s.withBuf b).dev = s.dev := rfl
@[simp] theorem State.withBuf_armFault (b : Buffer) : (s.withBuf b).armFault = s.armFault := rfl
@[simp] theorem State.withBuf_attached (b : Buffer) : (s.withBuf b).attached = s.attached := rfl
@[simp] theorem State.withBuf_host (b : Buffer) : (s.withBuf b).host = s.host := rfl
@[simp] theorem State.withBuf_answers (b : Buffer) : (s.withBuf b).answers = s.answers := rfl
@[simp] theorem State.withBuf_draws (b : Buffer) : (s.withBuf b).draws = s.draws := rfl

/-! ### resetBlock -/

@[simp] theorem State.resetBlock_buf : (s.resetBlock).buf = Config.resetValue := rfl
@[simp] theorem State.resetBlock_rsp : (s.resetBlock).rsp = none := rfl
@[simp] theorem State.resetBlock_inFlight : (s.resetBlock).inFlight = false := rfl
@[simp] theorem State.resetBlock_log : (s.resetBlock).log = [] := rfl
@[simp] theorem State.resetBlock_statuses : (s.resetBlock).statuses = [] := rfl
@[simp] theorem State.resetBlock_dev : (s.resetBlock).dev = s.dev := rfl
@[simp] theorem State.resetBlock_armFault : (s.resetBlock).armFault = s.armFault := rfl
@[simp] theorem State.resetBlock_attached : (s.resetBlock).attached = s.attached := rfl
@[simp] theorem State.resetBlock_host : (s.resetBlock).host = s.host := rfl
@[simp] theorem State.resetBlock_answers : (s.resetBlock).answers = s.answers := rfl
@[simp] theorem State.resetBlock_draws : (s.resetBlock).draws = s.draws := rfl

/-! ### idle -/

@[simp] theorem State.idle_buf : (s.idle).buf = s.buf := rfl
@[simp] theorem State.idle_rsp : (s.idle).rsp = none := rfl
@[simp] theorem State.idle_inFlight : (s.idle).inFlight = s.inFlight := rfl
@[simp] theorem State.idle_log : (s.idle).log = s.log := rfl
@[simp] theorem State.idle_statuses : (s.idle).statuses = s.statuses := rfl
@[simp] theorem State.idle_dev : (s.idle).dev = s.dev := rfl
@[simp] theorem State.idle_armFault : (s.idle).armFault = s.armFault := rfl
@[simp] theorem State.idle_attached : (s.idle).attached = s.attached := rfl
@[simp] theorem State.idle_host : (s.idle).host = s.host := rfl
@[simp] theorem State.idle_answers : (s.idle).answers = s.answers := rfl
@[simp] theorem State.idle_draws : (s.idle).draws = s.draws := rfl

/-! ### dropAct -/

@[simp] theorem State.dropAct_buf : (s.dropAct).buf = s.buf := rfl
@[simp] theorem State.dropAct_rsp : (s.dropAct).rsp = s.rsp := rfl
@[simp] theorem State.dropAct_inFlight : (s.dropAct).inFlight = s.inFlight := rfl
@[simp] theorem State.dropAct_log : (s.dropAct).log = s.log := rfl
@[simp] theorem State.dropAct_statuses : (s.dropAct).statuses = s.statuses := rfl
@[simp] theorem State.dropAct_dev : (s.dropAct).dev = s.dev := rfl
@[simp] theorem State.dropAct_armFault : (s.dropAct).armFault = s.armFault := rfl
@[simp] theorem State.dropAct_attached : (s.dropAct).attached = s.attached := rfl
@[simp] theorem State.dropAct_host : (s.dropAct).host = s.host.tail := rfl
@[simp] theorem State.dropAct_answers : (s.dropAct).answers = s.answers := rfl
@[simp] theorem State.dropAct_draws : (s.dropAct).draws = s.draws := rfl

/-! ### presenting -/

@[simp] theorem State.presenting_buf (cw : CmdWord) : (s.presenting cw).buf = s.buf := rfl
@[simp] theorem State.presenting_rsp (cw : CmdWord) : (s.presenting cw).rsp = s.rsp := rfl
@[simp] theorem State.presenting_inFlight (cw : CmdWord) : (s.presenting cw).inFlight = false := rfl
@[simp] theorem State.presenting_log (cw : CmdWord) : (s.presenting cw).log = s.log := rfl
@[simp] theorem State.presenting_statuses (cw : CmdWord) : (s.presenting cw).statuses = s.statuses := rfl
@[simp] theorem State.presenting_dev (cw : CmdWord) : (s.presenting cw).dev = s.dev := rfl
@[simp] theorem State.presenting_armFault (cw : CmdWord) : (s.presenting cw).armFault = s.armFault := rfl
@[simp] theorem State.presenting_attached (cw : CmdWord) : (s.presenting cw).attached = s.attached := rfl
@[simp] theorem State.presenting_host (cw : CmdWord) : (s.presenting cw).host = .command cw :: s.host := rfl
@[simp] theorem State.presenting_answers (cw : CmdWord) : (s.presenting cw).answers = s.answers := rfl
@[simp] theorem State.presenting_draws (cw : CmdWord) : (s.presenting cw).draws = s.draws := rfl

/-! ### The state after reset -/

@[simp] theorem State.reset_buf : State.reset.buf = Config.resetValue := rfl
@[simp] theorem State.reset_rsp : State.reset.rsp = none := rfl
@[simp] theorem State.reset_inFlight : State.reset.inFlight = false := rfl
@[simp] theorem State.reset_log : State.reset.log = [] := rfl
@[simp] theorem State.reset_statuses : State.reset.statuses = [] := rfl
@[simp] theorem State.reset_dev : State.reset.dev = .unspecified 0 := rfl
@[simp] theorem State.reset_armFault : State.reset.armFault = false := rfl
@[simp] theorem State.reset_attached : State.reset.attached = true := rfl
@[simp] theorem State.reset_host : State.reset.host = [] := rfl
@[simp] theorem State.reset_answers : State.reset.answers = [] := rfl
@[simp] theorem State.reset_draws : State.reset.draws = 1 := rfl

end Sys2Proof.Machine
end

