-- ==== Sys2Proof/Laws/Command.lean ====
section
/-! SUPPORT. What the shared operations can do, said once: the transport write, the end of a command, the command skeleton, and
every meaning as one of them. Provers cite these instead of unfolding. -/

namespace Sys2Proof.Machine

/-! ## The transport -/

theorem State.txSample_withBuf (b : Buffer) (s : State) : (s.withBuf b).txSample = s.txSample := rfl

theorem State.txSample_dropAct (s : State) : s.dropAct.txSample = s.txSample := rfl

/-- The counter of free values never falls. -/
theorem State.draws_le_takeSample (s : State) : s.draws ≤ s.takeSample.draws := by
  simp only [State.takeSample_draws]; split <;> omega

theorem State.send_answered {s : State} {a : Answer} (h : s.txSample = .answered a) : s.send = s.takeSample.finish a := by
  simp only [State.send, h]

theorem State.send_unanswered {s : State} (h : s.txSample = .quiet ∨ s.txSample = .silent) :
    s.send = s.takeSample.present := by
  rcases h with h | h <;> simp only [State.send, h]

theorem State.await_answered {s : State} {a : Answer} (h : s.txSample = .answered a) : s.await = s.takeSample.finish a := by
  simp only [State.await, h]

theorem State.await_unanswered {s : State} (h : s.txSample = .quiet ∨ s.txSample = .silent) : s.await = s.takeSample := by
  rcases h with h | h <;> simp only [State.await, h]

/-- A sample is an answer, or not. -/
theorem State.txSample_cases (s : State) :
    (∃ a, s.txSample = .answered a) ∨ s.txSample = .quiet ∨ s.txSample = .silent := by
  cases h : s.txSample with
  | answered a => exact .inl ⟨a, rfl⟩
  | quiet => exact .inr (.inl rfl)
  | silent => exact .inr (.inr rfl)

/-- A send never changes the buffer (60_exceptions.md R95, R96). -/
@[simp] theorem State.send_buf (s : State) : s.send.buf = s.buf := by
  rcases s.txSample_cases with ⟨a, h⟩ | h
  · rw [State.send_answered h]; rfl
  · rw [State.send_unanswered h]; rfl

@[simp] theorem State.send_attached (s : State) : s.send.attached = s.attached := by
  rcases s.txSample_cases with ⟨a, h⟩ | h
  · rw [State.send_answered h]; rfl
  · rw [State.send_unanswered h]; rfl

@[simp] theorem State.send_host (s : State) : s.send.host = s.host := by
  rcases s.txSample_cases with ⟨a, h⟩ | h
  · rw [State.send_answered h]; rfl
  · rw [State.send_unanswered h]; rfl

/-! ## What the end of a frame leaves -/

/-- An answered frame completes the command. -/
theorem completed_finish (s : State) (b : Buffer) (a : Answer) : Completed s ((s.withBuf b).takeSample.finish a) a where
  log := rfl
  rsp := rfl
  statuses := rfl
  done := rfl
  devOk h := by subst h; rfl
  devErr h := by
    subst h
    exact ⟨_, rfl, State.draws_le_takeSample (s.withBuf b), Nat.lt_succ_self _⟩
  attached := rfl
  host := rfl

/-- An unanswered frame leaves the command in progress. -/
theorem waiting_present (s : State) (b : Buffer) : Waiting s ((s.withBuf b).takeSample.present) where
  log := rfl
  rsp := rfl
  statuses := rfl
  busy := rfl
  txData := rfl
  attached := rfl
  host := rfl

/-! ## The skeleton -/

theorem accept_ready {run : State → State} {s : State} (h : Ready s) : accept run s = .next (run s) := by
  simp [accept, h.1, h.2]

/-- Everything the port can do with a command. -/
theorem accept_cases {run : State → State} {s t : State} (h : accept run s = .next t) :
    s.attached = true ∧ (s.inFlight = true ∧ t = s ∨ s.inFlight = false ∧ t = run s) := by
  unfold accept at h
  split at h
  · rename_i ha
    refine ⟨ha, ?_⟩
    split at h
    · rename_i hf
      injection h with h
      exact .inl ⟨hf, h.symm⟩
    · rename_i hf
      injection h with h
      exact .inr ⟨Bool.eq_false_iff.mpr hf, h.symm⟩
  · exact absurd h (by simp)

theorem command_ready {f : Buffer → Buffer} {s : State} (h : Ready s) :
    command f s = .next (s.withBuf (f s.buf)).send := accept_ready h

theorem illegalCommand_ready {s : State} (h : Ready s) : illegalCommand s = .next s.raiseIllegal := accept_ready h

/-! ## Every meaning is the skeleton over its own mutation -/

end Sys2Proof.Machine

namespace Sys2Proof

/-- Stage 2 of a command, `Mutate(d)` (00_scope.md R10), as a function of the buffer; the identity where `BI = 3`. -/
def Instr.mutate : Instr → Buffer → Buffer
  | .clrf bi sm, b => raw bi (clearBits sm) b
  | .setf bi vm, b => raw bi (setBits vm) b
  | .apply bi sm vm, b => raw bi (clearThenSet sm vm) b
  | .stopf bi sm, b => raw bi (clearBits sm) b
  | .stopAll, _ => Buffer.zero
  | .handStop, b => onField .hand 0x00 b
  | .handOpen, b => onField .hand 0x02 b
  | .handClose, b => onField .hand 0x01 b
  | .wristStop, b => onField .wrist 0x00 b
  | .wristUp, b => onField .wrist 0x04 b
  | .wristDown, b => onField .wrist 0x08 b
  | .elbowStop, b => onField .elbow 0x00 b
  | .elbowUp, b => onField .elbow 0x10 b
  | .elbowDown, b => onField .elbow 0x20 b
  | .shoulderStop, b => onField .shoulder 0x00 b
  | .shoulderUp, b => onField .shoulder 0x80 b
  | .shoulderDown, b => onField .shoulder 0x40 b
  | .baseStop, b => onField .base 0x00 b
  | .baseCw, b => onField .base 0x01 b
  | .baseCcw, b => onField .base 0x02 b
  | .ledOff, b => onField .led 0x00 b
  | .ledOn, b => onField .led 0x01 b
where
  /-- A rewrite of the byte a `BI` names. -/
  raw (bi : BitVec 2) (f : Byte → Byte) (b : Buffer) : Buffer :=
    match ByteIndex.ofBits bi with
    | some i => b.write i (f (b.read i))
    | none => b
  /-- Clear the field of a segment and set these bits. -/
  onField (seg : Segment) (v : Byte) (b : Buffer) : Buffer :=
    b.write (descriptor seg).bi (clearThenSet (descriptor seg).sm v (b.read (descriptor seg).bi))

theorem clearThenSet_zero (sm x : Byte) : clearThenSet sm 0x00 x = clearBits sm x := by
  simp [clearThenSet, setBits]

end Sys2Proof

namespace Sys2Proof.Machine

theorem rawCommand_legal {bi : BitVec 2} (h : biLegal bi = true) (f : Byte → Byte) (s : State) :
    rawCommand bi f s = command (Instr.mutate.raw bi f) s := by
  obtain ⟨i, hi⟩ := ByteIndex.ofBits_of_legal h
  have hm : Instr.mutate.raw bi f = fun b => b.write i (f (b.read i)) := by
    funext b; simp only [Instr.mutate.raw, hi]
  rw [hm]; simp only [rawCommand, hi]

theorem rawCommand_illegal {bi : BitVec 2} (h : biLegal bi = false) (f : Byte → Byte) (s : State) :
    rawCommand bi f s = illegalCommand s := by
  have hn : ByteIndex.ofBits bi = none := by
    have := ByteIndex.ofBits_isSome bi
    rw [h] at this
    exact Option.isNone_iff_eq_none.mp (by simpa using this)
  simp only [rawCommand, hn]

theorem stopSegment_eq (seg : Segment) (s : State) : stopSegment seg s = command (Instr.mutate.onField seg 0x00) s := by
  have : Instr.mutate.onField seg 0x00 =
      fun b => b.write (descriptor seg).bi (clearBits (descriptor seg).sm (b.read (descriptor seg).bi)) := by
    funext b; simp only [Instr.mutate.onField, clearThenSet_zero]
  rw [this]; rfl

/-- A well-formed command runs the skeleton over its mutation. -/
theorem exec_eq_command (i : Instr) (h : i.wf = true) (s : State) : exec i s = command i.mutate s := by
  cases i with
  | clrf bi sm => exact rawCommand_legal h _ s
  | setf bi vm => exact rawCommand_legal h _ s
  | apply bi sm vm => exact rawCommand_legal h _ s
  | stopf bi sm => exact rawCommand_legal h _ s
  | stopAll => rfl
  | handStop => exact stopSegment_eq .hand s
  | wristStop => exact stopSegment_eq .wrist s
  | elbowStop => exact stopSegment_eq .elbow s
  | shoulderStop => exact stopSegment_eq .shoulder s
  | baseStop => exact stopSegment_eq .base s
  | ledOff => exact stopSegment_eq .led s
  | handOpen => rfl
  | handClose => rfl
  | wristUp => rfl
  | wristDown => rfl
  | elbowUp => rfl
  | elbowDown => rfl
  | shoulderUp => rfl
  | shoulderDown => rfl
  | baseCw => rfl
  | baseCcw => rfl
  | ledOn => rfl

/-- An ill-formed command, a raw operation with `BI = 3`, is illegal (20_memory.md R36). -/
theorem exec_eq_illegal (i : Instr) (h : i.wf = false) (s : State) : exec i s = illegalCommand s := by
  cases i with
  | clrf bi sm => exact rawCommand_illegal h _ s
  | setf bi vm => exact rawCommand_illegal h _ s
  | apply bi sm vm => exact rawCommand_illegal h _ s
  | stopf bi sm => exact rawCommand_illegal h _ s
  | _ => exact absurd h (by decide)

/-- Everything a command can do: not accepted, illegal, or one mutation and one send. -/
theorem exec_cases {i : Instr} {s t : State} (h : exec i s = .next t) :
    s.attached = true ∧
      (s.inFlight = true ∧ t = s ∨
       s.inFlight = false ∧ i.wf = false ∧ t = s.raiseIllegal ∨
       s.inFlight = false ∧ i.wf = true ∧ t = (s.withBuf (i.mutate s.buf)).send) := by
  cases hw : i.wf with
  | false =>
    rw [exec_eq_illegal i hw] at h
    obtain ⟨ha, hc | hc⟩ := accept_cases h
    · exact ⟨ha, .inl hc⟩
    · exact ⟨ha, .inr (.inl ⟨hc.1, rfl, hc.2⟩)⟩
  | true =>
    rw [exec_eq_command i hw] at h
    obtain ⟨ha, hc | hc⟩ := accept_cases h
    · exact ⟨ha, .inl hc⟩
    · exact ⟨ha, .inr (.inr ⟨hc.1, rfl, hc.2⟩)⟩

/-- A well-formed command has every effect its mutation has on the buffer. -/
theorem effect_of_mutate {i : Instr} (hw : i.wf = true) {P : Buffer → Buffer → Prop} (h : ∀ b, P b (i.mutate b)) :
    Effect i P := by
  intro s hr
  rw [exec_eq_command i hw, command_ready hr]
  constructor
  · intro a ha
    refine ⟨_, rfl, ?_, ?_⟩
    · rw [State.send_buf]; exact h s.buf
    · rw [State.send_answered ((State.txSample_withBuf _ s).trans ha)]; exact completed_finish s _ a
  · intro hq
    refine ⟨_, rfl, ?_, ?_⟩
    · rw [State.send_buf]; exact h s.buf
    · rw [State.send_unanswered (by rwa [State.txSample_withBuf])]; exact waiting_present s _

/-- What any next state of a command holds in the buffer. -/
theorem exec_buf {i : Instr} {s t : State} (h : exec i s = .next t) :
    (s.inFlight = true ∧ t.buf = s.buf) ∨ (s.inFlight = false ∧ i.wf = false ∧ t.buf = s.buf) ∨
      (s.inFlight = false ∧ i.wf = true ∧ t.buf = i.mutate s.buf) := by
  obtain ⟨-, ⟨hf, rfl⟩ | ⟨hf, hw, rfl⟩ | ⟨hf, hw, rfl⟩⟩ := exec_cases h
  · exact .inl ⟨hf, rfl⟩
  · exact .inr (.inl ⟨hf, hw, rfl⟩)
  · exact .inr (.inr ⟨hf, hw, by rw [State.send_buf]; rfl⟩)

/-! ## The step -/

theorem step_eq (s : State) : step s = stepWith true s := rfl

theorem stepWith_busy {admitRaw : Bool} {s : State} (h : s.inFlight = true) : stepWith admitRaw s = busyEvent s := by
  simp only [stepWith, h, if_true]

theorem stepWith_ready {admitRaw : Bool} {s : State} (h : s.inFlight = false) :
    stepWith admitRaw s = readyEvent admitRaw s := by
  simp [stepWith, h]

/-- Everything an event can do, guards included. -/
theorem stepWith_cases {admitRaw : Bool} {s t : State} (h : stepWith admitRaw s = .next t) :
    (s.inFlight = true ∧ t = s.await) ∨
    (s.inFlight = false ∧ s.host = [] ∧ t = s.idle) ∨
    (s.inFlight = false ∧ (∃ rest, s.host = .reset :: rest ∨ s.host = .resetNow :: rest) ∧ t = s.dropAct.resetBlock) ∨
    (s.inFlight = false ∧ ∃ cw rest, s.host = .command cw :: rest ∧
      ((∃ e, decode admitRaw cw = .error e ∧ illegalCommand s.dropAct = .next t) ∨
       (∃ i, decode admitRaw cw = .ok i ∧ exec i s.dropAct = .next t))) := by
  cases hf : s.inFlight with
  | true =>
    left
    rw [stepWith_busy hf] at h
    unfold busyEvent at h
    split at h
    · exact absurd h (by simp)
    all_goals (injection h with h; exact ⟨rfl, h.symm⟩)
  | false =>
    right
    rw [stepWith_ready hf] at h
    unfold readyEvent at h
    split at h
    · rename_i cw rest hh
      refine .inr (.inr ⟨rfl, cw, rest, hh, ?_⟩)
      unfold runWord at h
      split at h
      · rename_i i hd; exact .inr ⟨i, hd, h⟩
      · rename_i e hd; exact .inl ⟨e, hd, h⟩
    · rename_i rest hh
      injection h with h
      exact .inr (.inl ⟨rfl, ⟨rest, .inl hh⟩, h.symm⟩)
    · rename_i rest hh
      injection h with h
      exact .inr (.inl ⟨rfl, ⟨rest, .inr hh⟩, h.symm⟩)
    · rename_i hh
      injection h with h
      exact .inl ⟨rfl, hh, h.symm⟩

end Sys2Proof.Machine
end

