-- ==== Sys2Proof/Laws/Decode.lean ====
section
/-! SUPPORT. The fields of the word formats (spec 30_encoding.md R49 to R51), the selectors (R17, R51) and the opcode table. -/

namespace Sys2Proof

/-! ## Words as numbers -/

theorem bitVec_append_toNat_add {m n : Nat} (x : BitVec m) (y : BitVec n) :
    (x ++ y).toNat = x.toNat * 2 ^ n + y.toNat := by
  rw [BitVec.toNat_append, ← Nat.shiftLeft_add_eq_or_of_lt y.isLt, Nat.shiftLeft_eq]

theorem bitVec_extract_toNat (cw : CmdWord) (lo len : Nat) :
    (cw.extractLsb' lo len).toNat = cw.toNat / 2 ^ lo % 2 ^ len := by
  rw [BitVec.extractLsb'_toNat, Nat.shiftRight_eq_div_pow]

/-! ## Format R (R49) -/

theorem formatR_toNat (op : BitVec 4) (bi : BitVec 2) (sm vm : Byte) :
    (formatR op bi sm vm).toNat = op.toNat * 1048576 + bi.toNat * 65536 + sm.toNat * 256 + vm.toNat := by
  simp only [formatR, bitVec_append_toNat_add, BitVec.toNat_ofNat]; omega

section
variable (op : BitVec 4) (bi : BitVec 2) (sm vm : Byte)

@[simp] theorem opField_formatR : opField (formatR op bi sm vm) = op := by
  have := op.isLt; have := bi.isLt; have := sm.isLt; have := vm.isLt
  apply BitVec.eq_of_toNat_eq; rw [opField, bitVec_extract_toNat, formatR_toNat]; omega

@[simp] theorem z2Field_formatR : z2Field (formatR op bi sm vm) = 0#2 := by
  have := op.isLt; have := bi.isLt; have := sm.isLt; have := vm.isLt
  apply BitVec.eq_of_toNat_eq
  rw [z2Field, bitVec_extract_toNat, formatR_toNat, BitVec.toNat_ofNat]; omega

@[simp] theorem biField_formatR : biField (formatR op bi sm vm) = bi := by
  have := op.isLt; have := bi.isLt; have := sm.isLt; have := vm.isLt
  apply BitVec.eq_of_toNat_eq; rw [biField, bitVec_extract_toNat, formatR_toNat]; omega

@[simp] theorem smField_formatR : smField (formatR op bi sm vm) = sm := by
  have := op.isLt; have := bi.isLt; have := sm.isLt; have := vm.isLt
  apply BitVec.eq_of_toNat_eq; rw [smField, bitVec_extract_toNat, formatR_toNat]; omega

@[simp] theorem vmField_formatR : vmField (formatR op bi sm vm) = vm := by
  have := op.isLt; have := bi.isLt; have := sm.isLt; have := vm.isLt
  apply BitVec.eq_of_toNat_eq; rw [vmField, bitVec_extract_toNat, formatR_toNat]; omega

end

/-- A word with `Z2 = 0` is its own fields in format R. -/
theorem formatR_fields {cw : CmdWord} (h : z2Field cw = 0#2) :
    formatR (opField cw) (biField cw) (smField cw) (vmField cw) = cw := by
  have h2 := congrArg BitVec.toNat h
  have := cw.isLt
  rw [z2Field, bitVec_extract_toNat, BitVec.toNat_ofNat] at h2
  apply BitVec.eq_of_toNat_eq
  rw [formatR_toNat, opField, biField, smField, vmField]
  simp only [bitVec_extract_toNat]
  omega

/-! ## Format N (R51) -/

theorem formatN_toNat (act : Action) (seg : Segment) :
    (formatN act seg).toNat = 8388608 + act.bits.toNat * 8 + seg.bits.toNat := by
  simp only [formatN, bitVec_append_toNat_add, BitVec.toNat_ofNat]; omega

@[simp] theorem opField_formatN (act : Action) (seg : Segment) : opField (formatN act seg) = 8#4 := by
  cases act <;> cases seg <;> rfl

@[simp] theorem z15Field_formatN (act : Action) (seg : Segment) : z15Field (formatN act seg) = 0#15 := by
  cases act <;> cases seg <;> rfl

@[simp] theorem actField_formatN (act : Action) (seg : Segment) : actField (formatN act seg) = act.bits := by
  cases act <;> cases seg <;> rfl

@[simp] theorem segField_formatN (act : Action) (seg : Segment) : segField (formatN act seg) = seg.bits := by
  cases act <;> cases seg <;> rfl

/-- A word with `OP = 8` and `Z15 = 0` whose selectors are legal is that action on that segment in format N. -/
theorem formatN_fields {cw : CmdWord} {act : Action} {seg : Segment} (ho : opField cw = 8#4) (hz : z15Field cw = 0#15)
    (ha : actField cw = act.bits) (hs : segField cw = seg.bits) : formatN act seg = cw := by
  have := cw.isLt
  have ho := congrArg BitVec.toNat ho
  have hz := congrArg BitVec.toNat hz
  rw [opField, bitVec_extract_toNat, BitVec.toNat_ofNat] at ho
  rw [z15Field, bitVec_extract_toNat, BitVec.toNat_ofNat] at hz
  apply BitVec.eq_of_toNat_eq
  rw [formatN_toNat, ← ha, ← hs, actField, segField]
  simp only [bitVec_extract_toNat]
  omega

/-! ## Format Z (R50) -/

/-- A word with `OP = 5` and the rest zero is the one word of format Z. -/
theorem formatZ_fields {cw : CmdWord} (ho : opField cw = 5#4) (hz : z20Field cw = 0#20) : cw = 0x500000#24 := by
  have := cw.isLt
  have ho := congrArg BitVec.toNat ho
  have hz := congrArg BitVec.toNat hz
  rw [opField, bitVec_extract_toNat, BitVec.toNat_ofNat] at ho
  rw [z20Field, bitVec_extract_toNat, BitVec.toNat_ofNat] at hz
  apply BitVec.eq_of_toNat_eq
  rw [BitVec.toNat_ofNat]
  omega

/-! ## The selectors (R17, R51) -/

@[simp] theorem Segment.ofBits_bits (seg : Segment) : Segment.ofBits seg.bits = some seg := by
  cases seg <;> rfl

@[simp] theorem Action.ofBits_bits (act : Action) : Action.ofBits act.bits = some act := by
  cases act <;> rfl

theorem Segment.bits_of_ofBits {b : BitVec 3} {seg : Segment} (h : Segment.ofBits b = some seg) : b = seg.bits := by
  revert h; revert seg; revert b
  have : ∀ b : BitVec 3, ∀ n, n = b.toNat → ∀ seg, Segment.ofBits b = some seg → b = seg.bits := by
    intro b n _ seg h
    unfold Segment.ofBits at h
    split at h <;> first
      | (injection h with h; subst h; apply BitVec.eq_of_toNat_eq; assumption)
      | exact absurd h (by simp)
  intro b seg h
  exact this b _ rfl seg h

theorem Action.bits_of_ofBits {b : BitVec 2} {act : Action} (h : Action.ofBits b = some act) : b = act.bits := by
  unfold Action.ofBits at h
  split at h <;> first
    | (injection h with h; subst h; apply BitVec.eq_of_toNat_eq; assumption)
    | exact absurd h (by simp)

/-- No `SEG` selects a segment exactly when it is 6 or 7 (R58). -/
theorem Segment.ofBits_none (b : BitVec 3) : Segment.ofBits b = none ↔ b = 6#3 ∨ b = 7#3 := by
  revert b; decide

/-- No `ACT` selects an action exactly when it is 3 (R58). -/
theorem Action.ofBits_none (b : BitVec 2) : Action.ofBits b = none ↔ b = 3#2 := by
  revert b; decide

/-- Every action on every segment is a command but value B of the LED (R58). -/
theorem namedInstr_none (act : Action) (seg : Segment) : namedInstr act seg = none ↔ act = .valueB ∧ seg = .led := by
  revert act seg
  intro act seg; cases act <;> cases seg <;> decide

/-! ## The opcode table -/

/-- No word belongs to two rows of the table. -/
theorem opcodeTable_disjoint :
    opcodeTable.Pairwise (fun r q => r.pattern &&& (r.mask &&& q.mask) ≠ q.pattern &&& (r.mask &&& q.mask)) := by
  decide

/-- The table has 22 rows (R55). -/
theorem opcodeTable_length : opcodeTable.length = 22 := rfl

end Sys2Proof
end

