-- ==== Sys2Proof/Laws/PerInstr.lean ====
section
/-! SUPPORT. A statement made of every command, one lemma per constructor of `Instr`. -/

namespace Sys2Proof.Laws.TableWord

/-- The encoder agrees with spec/opcode_table.json: the word of a command lies in the command's own row. -/
def Statement (i : Instr) : Prop := encode i &&& i.row.mask = i.row.pattern

/-- Masking a word of format R masks its fields. -/
theorem formatR_and (op op' : BitVec 4) (z bi bi' : BitVec 2) (sm sm' vm vm' : Byte) :
    formatR op bi sm vm &&& (op' ++ z ++ bi' ++ sm' ++ vm') = formatR (op &&& op') (bi &&& bi') (sm &&& sm') (vm &&& vm') := by
  refine BitVec.and_append.trans ?_
  congr 1
  refine BitVec.and_append.trans ?_
  congr 1
  refine BitVec.and_append.trans ?_
  congr 1
  refine BitVec.and_append.trans ?_
  congr 1
  simp

theorem clrf (bi : BitVec 2) (sm : Byte) : Statement (.clrf bi sm) := by
  refine (formatR_and 1#4 0xF#4 3#2 bi 0#2 sm 0x00#8 0#8 0xFF#8).trans ?_
  simp only [BitVec.and_zero]; rfl

theorem setf (bi : BitVec 2) (vm : Byte) : Statement (.setf bi vm) := by
  refine (formatR_and 2#4 0xF#4 3#2 bi 0#2 0#8 0xFF#8 vm 0x00#8).trans ?_
  simp only [BitVec.and_zero]; rfl

theorem apply (bi : BitVec 2) (sm vm : Byte) : Statement (.apply bi sm vm) := by
  refine (formatR_and 3#4 0xF#4 3#2 bi 0#2 sm 0x00#8 vm 0x00#8).trans ?_
  simp only [BitVec.and_zero]; rfl

theorem stopf (bi : BitVec 2) (sm : Byte) : Statement (.stopf bi sm) := by
  refine (formatR_and 4#4 0xF#4 3#2 bi 0#2 sm 0x00#8 0#8 0xFF#8).trans ?_
  simp only [BitVec.and_zero]; rfl

theorem stopAll : Statement .stopAll := rfl
theorem handStop : Statement .handStop := rfl
theorem handOpen : Statement .handOpen := rfl
theorem handClose : Statement .handClose := rfl
theorem wristStop : Statement .wristStop := rfl
theorem wristUp : Statement .wristUp := rfl
theorem wristDown : Statement .wristDown := rfl
theorem elbowStop : Statement .elbowStop := rfl
theorem elbowUp : Statement .elbowUp := rfl
theorem elbowDown : Statement .elbowDown := rfl
theorem shoulderStop : Statement .shoulderStop := rfl
theorem shoulderUp : Statement .shoulderUp := rfl
theorem shoulderDown : Statement .shoulderDown := rfl
theorem baseStop : Statement .baseStop := rfl
theorem baseCw : Statement .baseCw := rfl
theorem baseCcw : Statement .baseCcw := rfl
theorem ledOff : Statement .ledOff := rfl
theorem ledOn : Statement .ledOn := rfl

end Sys2Proof.Laws.TableWord
end

