-- ==== Sys2Proof/Tests/Slice0.lean ====
section
/-! SUPPORT. The model's own tests. Every expected value is written in spec/95_test_vectors.md, part and row named, or is worked out
by hand from the rule named; none is the model's own answer. The last part holds a witness for every statement that has
hypotheses. -/

namespace Sys2Proof.Tests

open Sys2Proof.Machine

/-! ## Helpers -/

/-- The state after reset with this buffer, these samples of the transport to come and these acts of the host. -/
def stateOf (b : Buffer) (answers : List TxSample) (host : List HostAct) : State :=
  { State.reset with buf := b, answers := answers, host := host }

/-- The same with a command in progress. -/
def busyOf (b : Buffer) (answers : List TxSample) (host : List HostAct) : State :=
  { stateOf b answers host with inFlight := true }

/-- The next state of a result, if there is one. -/
def nextOf (r : Result) : Option State :=
  match r with
  | .next t => some t
  | .fault _ => none
  | .refused _ => none

/-- The refusal of a result, if it is one. -/
def refusalOf (r : Result) : Option Refusal :=
  match r with
  | .next _ => none
  | .fault _ => none
  | .refused x => some x

/-- The buffer after one step that is given this word, the transport answering `ok`. -/
def bufferAfter (b : Buffer) (cw : CmdWord) : Option Buffer :=
  (nextOf (step (stateOf b [.answered .ok] [.command cw]))).map State.buf

/-- Status and log after one step that is given this word. -/
def outcomeAfter (b : Buffer) (x : TxSample) (cw : CmdWord) : Option (Option (BitVec 2) × List Sent) :=
  (nextOf (step (stateOf b [x] [.command cw]))).map (fun t => (t.rspStatus, t.log))

/-- The buffers `[0x94, 0x02, 0x01]` and `[0xFF, 0xFF, 0xFF]`, M and F of V3. -/
def bufM : Buffer := ⟨0x94, 0x02, 0x01⟩
/-- See `bufM`. -/
def bufF : Buffer := ⟨0xFF, 0xFF, 0xFF⟩

/-! ## Well-formedness: an ill-formed term for each check, refused (20_memory.md R36) -/

theorem test_wf_clrf : (Instr.clrf 3 0x03).wf = false ∧ (Instr.clrf 2 0x03).wf = true := by decide
theorem test_wf_setf : (Instr.setf 3 0x01).wf = false ∧ (Instr.setf 2 0x01).wf = true := by decide
theorem test_wf_apply : (Instr.apply 3 0x03 0x02).wf = false ∧ (Instr.apply 0 0x03 0x02).wf = true := by decide
theorem test_wf_stopf : (Instr.stopf 3 0x03).wf = false ∧ (Instr.stopf 1 0x03).wf = true := by decide

/-! ## Decoding: words written out bit by bit from 30_encoding.md R55 -/

theorem test_decode_clrf : decode true 0b000100101111111000000000#24 = .ok (.clrf 2 0xFE) := by decide
theorem test_decode_setf : decode true 0b001000010000000010000000#24 = .ok (.setf 1 0x80) := by decide
theorem test_decode_apply : decode true 0b001100001111111101011010#24 = .ok (.apply 0 0xFF 0x5A) := by decide
theorem test_decode_stopf : decode true 0b010000001100000000000000#24 = .ok (.stopf 0 0xC0) := by decide
theorem test_decode_stopAll : decode true 0b010100000000000000000000#24 = .ok .stopAll := by decide
theorem test_decode_handStop : decode true 0b100000000000000000000000#24 = .ok .handStop := by decide
theorem test_decode_handOpen : decode true 0b100000000000000000001000#24 = .ok .handOpen := by decide
theorem test_decode_handClose : decode true 0b100000000000000000010000#24 = .ok .handClose := by decide
theorem test_decode_wristStop : decode true 0b100000000000000000000001#24 = .ok .wristStop := by decide
theorem test_decode_wristUp : decode true 0b100000000000000000001001#24 = .ok .wristUp := by decide
theorem test_decode_wristDown : decode true 0b100000000000000000010001#24 = .ok .wristDown := by decide
theorem test_decode_elbowStop : decode true 0b100000000000000000000010#24 = .ok .elbowStop := by decide
theorem test_decode_elbowUp : decode true 0b100000000000000000001010#24 = .ok .elbowUp := by decide
theorem test_decode_elbowDown : decode true 0b100000000000000000010010#24 = .ok .elbowDown := by decide
theorem test_decode_shoulderStop : decode true 0b100000000000000000000011#24 = .ok .shoulderStop := by decide
theorem test_decode_shoulderUp : decode true 0b100000000000000000001011#24 = .ok .shoulderUp := by decide
theorem test_decode_shoulderDown : decode true 0b100000000000000000010011#24 = .ok .shoulderDown := by decide
theorem test_decode_baseStop : decode true 0b100000000000000000000100#24 = .ok .baseStop := by decide
theorem test_decode_baseCw : decode true 0b100000000000000000001100#24 = .ok .baseCw := by decide
theorem test_decode_baseCcw : decode true 0b100000000000000000010100#24 = .ok .baseCcw := by decide
theorem test_decode_ledOff : decode true 0b100000000000000000000101#24 = .ok .ledOff := by decide
theorem test_decode_ledOn : decode true 0b100000000000000000001101#24 = .ok .ledOn := by decide

/-! ## Illegal words (V2), each with its cause -/

theorem test_illegal_opcode :
    decode true 0x000000#24 = .error .reservedOpcode ∧ decode true 0xFFFFFF#24 = .error .reservedOpcode ∧
    decode true 0x600000#24 = .error .reservedOpcode ∧ decode true 0x700000#24 = .error .reservedOpcode ∧
    decode true 0x900000#24 = .error .reservedOpcode ∧ decode true 0xF00000#24 = .error .reservedOpcode := by decide
theorem test_illegal_byteIndex :
    decode true 0x130300#24 = .error .byteIndex ∧ decode true 0x230001#24 = .error .byteIndex := by decide
theorem test_illegal_unusedOperand :
    decode true 0x100301#24 = .error .unusedOperand ∧ decode true 0x400301#24 = .error .unusedOperand ∧
    decode true 0x200102#24 = .error .unusedOperand := by decide
theorem test_illegal_reservedBits :
    decode true 0x140302#24 = .error .reservedBits ∧ decode true 0x340302#24 = .error .reservedBits ∧
    decode true 0x380302#24 = .error .reservedBits ∧ decode true 0x500001#24 = .error .reservedBits ∧
    decode true 0x580000#24 = .error .reservedBits ∧ decode true 0x800020#24 = .error .reservedBits ∧
    decode true 0x810008#24 = .error .reservedBits ∧ decode true 0x880008#24 = .error .reservedBits := by decide
theorem test_illegal_segment :
    decode true 0x800006#24 = .error .segment ∧ decode true 0x800007#24 = .error .segment := by decide
theorem test_illegal_action :
    decode true 0x800018#24 = .error .action ∧ decode true 0x80001D#24 = .error .action := by decide
theorem test_illegal_ledValueB :
    decode true 0x800015#24 = .error .ledValueB := by decide
theorem test_illegal_raw : decode false 0x100300#24 = .error .rawNotAdmitted ∧ decode false 0x200001#24 = .error .rawNotAdmitted ∧
    decode false 0x300302#24 = .error .rawNotAdmitted ∧ decode false 0x400300#24 = .error .rawNotAdmitted := by decide
/-- The nearest legal neighbours of V2. -/
theorem test_legal_neighbours : decode true 0x120300#24 = .ok (.clrf 2 0x03) ∧ decode true 0x100300#24 = .ok (.clrf 0 0x03) ∧
    decode true 0x800005#24 = .ok .ledOff ∧ decode true 0x500000#24 = .ok .stopAll ∧
    decode true 0x100000#24 = .ok (.clrf 0 0x00) := by decide

/-! ## The opcode table and the host's reading of a word -/

/-- Every row's pattern has the row's own bits only, and no two rows share a word. -/
theorem test_table_disjoint : opcodeTable.length = 22 ∧ (opcodeTable.all fun r => r.pattern &&& ~~~r.mask == 0#24) = true ∧
    opcodeTable.Pairwise (fun r r' => (r.pattern ^^^ r'.pattern) &&& (r.mask &&& r'.mask) ≠ 0#24) := by decide
theorem test_decodeTableWord : decodeTableWord 24 0x800014 = some .baseCcw ∧ decodeTableWord 24 0x800015 = none ∧
    decodeTableWord 24 0x30C040 = some (.apply 0 0xC0 0x40) := by decide
/-- A table word placed by `withFetchWord` is what the first step after reset runs (P2 row 0). -/
theorem test_withFetchWord : (nextOf (step (State.reset.withFetchWord 24 0x80000B))).map State.buf = some ⟨0x80, 0x00, 0x00⟩ := by
  decide

/-! ## The named commands and STOPALL from F and M (V3) -/

theorem test_handStop_F : bufferAfter bufF 0x800000 = some ⟨0xFC, 0xFF, 0xFF⟩ := by decide
theorem test_handStop_M : bufferAfter bufM 0x800000 = some ⟨0x94, 0x02, 0x01⟩ := by decide
theorem test_handOpen_F : bufferAfter bufF 0x800008 = some ⟨0xFE, 0xFF, 0xFF⟩ := by decide
theorem test_handOpen_M : bufferAfter bufM 0x800008 = some ⟨0x96, 0x02, 0x01⟩ := by decide
theorem test_handClose_F : bufferAfter bufF 0x800010 = some ⟨0xFD, 0xFF, 0xFF⟩ := by decide
theorem test_handClose_M : bufferAfter bufM 0x800010 = some ⟨0x95, 0x02, 0x01⟩ := by decide
theorem test_wristStop_F : bufferAfter bufF 0x800001 = some ⟨0xF3, 0xFF, 0xFF⟩ := by decide
theorem test_wristStop_M : bufferAfter bufM 0x800001 = some ⟨0x90, 0x02, 0x01⟩ := by decide
theorem test_wristUp_F : bufferAfter bufF 0x800009 = some ⟨0xF7, 0xFF, 0xFF⟩ := by decide
theorem test_wristUp_M : bufferAfter bufM 0x800009 = some ⟨0x94, 0x02, 0x01⟩ := by decide
theorem test_wristDown_F : bufferAfter bufF 0x800011 = some ⟨0xFB, 0xFF, 0xFF⟩ := by decide
theorem test_wristDown_M : bufferAfter bufM 0x800011 = some ⟨0x98, 0x02, 0x01⟩ := by decide
theorem test_elbowStop_F : bufferAfter bufF 0x800002 = some ⟨0xCF, 0xFF, 0xFF⟩ := by decide
theorem test_elbowStop_M : bufferAfter bufM 0x800002 = some ⟨0x84, 0x02, 0x01⟩ := by decide
theorem test_elbowUp_F : bufferAfter bufF 0x80000A = some ⟨0xDF, 0xFF, 0xFF⟩ := by decide
theorem test_elbowUp_M : bufferAfter bufM 0x80000A = some ⟨0x94, 0x02, 0x01⟩ := by decide
theorem test_elbowDown_F : bufferAfter bufF 0x800012 = some ⟨0xEF, 0xFF, 0xFF⟩ := by decide
theorem test_elbowDown_M : bufferAfter bufM 0x800012 = some ⟨0xA4, 0x02, 0x01⟩ := by decide
theorem test_shoulderStop_F : bufferAfter bufF 0x800003 = some ⟨0x3F, 0xFF, 0xFF⟩ := by decide
theorem test_shoulderStop_M : bufferAfter bufM 0x800003 = some ⟨0x14, 0x02, 0x01⟩ := by decide
theorem test_shoulderUp_F : bufferAfter bufF 0x80000B = some ⟨0xBF, 0xFF, 0xFF⟩ := by decide
theorem test_shoulderUp_M : bufferAfter bufM 0x80000B = some ⟨0x94, 0x02, 0x01⟩ := by decide
theorem test_shoulderDown_F : bufferAfter bufF 0x800013 = some ⟨0x7F, 0xFF, 0xFF⟩ := by decide
theorem test_shoulderDown_M : bufferAfter bufM 0x800013 = some ⟨0x54, 0x02, 0x01⟩ := by decide
theorem test_baseStop_F : bufferAfter bufF 0x800004 = some ⟨0xFF, 0xFC, 0xFF⟩ := by decide
theorem test_baseStop_M : bufferAfter bufM 0x800004 = some ⟨0x94, 0x00, 0x01⟩ := by decide
theorem test_baseCw_F : bufferAfter bufF 0x80000C = some ⟨0xFF, 0xFD, 0xFF⟩ := by decide
theorem test_baseCw_M : bufferAfter bufM 0x80000C = some ⟨0x94, 0x01, 0x01⟩ := by decide
theorem test_baseCcw_F : bufferAfter bufF 0x800014 = some ⟨0xFF, 0xFE, 0xFF⟩ := by decide
theorem test_baseCcw_M : bufferAfter bufM 0x800014 = some ⟨0x94, 0x02, 0x01⟩ := by decide
theorem test_ledOff_F : bufferAfter bufF 0x800005 = some ⟨0xFF, 0xFF, 0xFE⟩ := by decide
theorem test_ledOff_M : bufferAfter bufM 0x800005 = some ⟨0x94, 0x02, 0x00⟩ := by decide
theorem test_ledOn_F : bufferAfter bufF 0x80000D = some ⟨0xFF, 0xFF, 0xFF⟩ := by decide
theorem test_ledOn_M : bufferAfter bufM 0x80000D = some ⟨0x94, 0x02, 0x01⟩ := by decide
theorem test_stopAll_F : bufferAfter bufF 0x500000 = some ⟨0x00, 0x00, 0x00⟩ := by decide
theorem test_stopAll_M : bufferAfter bufM 0x500000 = some ⟨0x00, 0x00, 0x00⟩ := by decide

/-! ## The raw operations (V4, V5, V6) -/

theorem test_clrf_field : bufferAfter bufM 0x103000 = some ⟨0x84, 0x02, 0x01⟩ := by decide
theorem test_clrf_byte1 : bufferAfter ⟨0x00, 0xFF, 0x00⟩ 0x11FC00 = some ⟨0x00, 0x03, 0x00⟩ := by decide
theorem test_setf_hazard : bufferAfter ⟨0x02, 0x00, 0x00⟩ 0x200001 = some ⟨0x03, 0x00, 0x00⟩ := by decide
theorem test_setf_byte2 : bufferAfter ⟨0x00, 0x00, 0x01⟩ 0x220002 = some ⟨0x00, 0x00, 0x03⟩ := by decide
theorem test_apply_outside : bufferAfter ⟨0x01, 0x00, 0x00⟩ 0x300304 = some ⟨0x04, 0x00, 0x00⟩ := by decide
theorem test_apply_byte1 : bufferAfter ⟨0x94, 0x01, 0x01⟩ 0x310302 = some ⟨0x94, 0x02, 0x01⟩ := by decide
theorem test_stopf_hand : bufferAfter ⟨0x01, 0x00, 0x00⟩ 0x400300 = some ⟨0x00, 0x00, 0x00⟩ := by decide
theorem test_stopf_shoulder : bufferAfter ⟨0xC0, 0x00, 0x00⟩ 0x40C000 = some ⟨0x00, 0x00, 0x00⟩ := by decide

/-! ## Status and log (V7, V8), image and invariant (P3, P4, V10) -/

theorem test_status_ok : outcomeAfter ⟨0x80, 0x00, 0x00⟩ (.answered .ok) 0x80000A =
    some (some 0#2, [⟨⟨0x90, 0x00, 0x00⟩, .ok⟩]) := by decide
theorem test_status_err : outcomeAfter ⟨0x80, 0x00, 0x00⟩ (.answered .err) 0x80000A =
    some (some 1#2, [⟨⟨0x90, 0x00, 0x00⟩, .err⟩]) := by decide
theorem test_status_illegal : outcomeAfter ⟨0x80, 0x00, 0x00⟩ (.answered .ok) 0x800015 = some (some 2#2, []) := by decide
theorem test_status_unchanged : outcomeAfter ⟨0x80, 0x00, 0x00⟩ (.answered .ok) 0x100000 =
    some (some 0#2, [⟨⟨0x80, 0x00, 0x00⟩, .ok⟩]) := by decide
theorem test_stopAll_err : outcomeAfter bufM (.answered .err) 0x500000 = some (some 1#2, [⟨⟨0x00, 0x00, 0x00⟩, .err⟩]) := by
  decide
/-- A frame that is not answered yet: no status, no entry, `cmd_ready` low, the write already on `q` (R25, R98). -/
theorem test_quiet : (nextOf (step (stateOf ⟨0x80, 0x00, 0x00⟩ [.quiet] [.command 0x80000A]))).map
    (fun t => (t.rspStatus, t.log, t.cmdReady, t.q, t.txData)) = some (none, [], false, 0x000090#24, some 0x000090#24) := by decide
/-- An invalid field that the arm took is recorded (P3 row 1, 93 U1). -/
theorem test_armFault : (nextOf (step (stateOf ⟨0x02, 0x00, 0x00⟩ [.answered .ok] [.command 0x200001]))).map State.armFault =
    some true := by decide
theorem test_image_ok : (nextOf (step (stateOf ⟨0x00, 0x00, 0x00⟩ [.answered .ok] [.command 0x80000B]))).map State.dev =
    some (.took ⟨0x80, 0x00, 0x00⟩) := by decide
/-- A reset between commands zeroes the buffer and takes no sample of the transport (R109). -/
theorem test_reset : (nextOf (step (stateOf bufM [.answered .ok] [.reset]))).map (fun t => (t.buf, t.answers)) =
    some (⟨0x00, 0x00, 0x00⟩, [.answered .ok]) := by decide
theorem test_refusals : refusalOf (step (busyOf bufM [.quiet] [.resetNow])) = some .resetDuringCommand ∧
    refusalOf (step { stateOf bufM [] [.command 0x500000] with attached := false }) = some .noTransport := by decide
theorem test_inv : (Buffer.mk 0x94 0x02 0x01).inv = true ∧ (Buffer.mk 0xAA 0x02 0x01).inv = true ∧
    (Buffer.mk 0x55 0x01 0x00).inv = true ∧ (Buffer.mk 0x03 0x00 0x00).inv = false ∧ (Buffer.mk 0x00 0x03 0x00).inv = false ∧
    (Buffer.mk 0x00 0x04 0x00).inv = false ∧ (Buffer.mk 0x00 0x00 0x02).inv = false := by decide
/-- With `ADMIT_RAW = false` a raw word is illegal (P6 row 1). -/
theorem test_admitRaw : (nextOf (stepWith false (stateOf ⟨0x02, 0x00, 0x00⟩ [.answered .ok] [.command 0x200001]))).map
    (fun t => (t.buf, t.rspStatus)) = some (⟨0x02, 0x00, 0x00⟩, some 2#2) := by decide

/-! ## The assembler (30_encoding.md R62, V1) -/

theorem test_asm_raw : Asm.parseLine "CLRF 0, 0x03 ; hand" = .command (.clrf 0 0x03) ∧
    Asm.parseLine "APPLY 1, 0b11, 2" = .command (.apply 1 0x03 0x02) ∧ Asm.parseLine "SETF 3, 1" = .error := by decide
theorem test_asm_names : Asm.parseLine "NOPSEND" = .command (.clrf 0 0x00) ∧ Asm.parseLine "turnLedOff" = .command .ledOff ∧
    Asm.parseLine "stopAll()" = .command .stopAll ∧ Asm.parseLine "open hand" = .command .handOpen ∧
    Asm.parseLine "clearField(0, 0x30)" = .command (.clrf 0 0x30) ∧ Asm.parseLine "; only a comment" = .blank := by decide
theorem test_asm_words : Asm.assemble ["HAND_OPEN", "", "SETF 0, 0x01 ; close"] = some [0x800008#24, 0x200001#24] := by decide

/-! ## Witnesses: concrete states and operands that meet the hypotheses of the statements -/

/-- A ready state whose transport answers `ok`, then `err`, then `ok`. -/
def readyS : State := stateOf bufM [.answered .ok, .answered .err, .answered .ok] [.command 0x800010]
/-- A ready state whose transport answers `err`, then `ok`. -/
def readyErr : State := stateOf bufM [.answered .err, .answered .ok] [.command 0x800010]
/-- A ready state whose transport shows no answer yet, and one whose transport never answers. -/
def readyQuiet : State := stateOf bufM [.quiet] []
/-- See `readyQuiet`. -/
def readySilent : State := stateOf bufM [.silent] [.command 0x800010]

theorem answering_readyS : Answering readyS := by
  intro x hx
  simp only [readyS, stateOf, List.mem_cons, List.not_mem_nil, or_false] at hx
  rcases hx with rfl | rfl | rfl <;> exact ⟨_, rfl⟩
theorem answering_readyErr : Answering readyErr := by
  intro x hx
  simp only [readyErr, stateOf, List.mem_cons, List.not_mem_nil, or_false] at hx
  rcases hx with rfl | rfl <;> exact ⟨_, rfl⟩

/-- DecodeOfEncode, the highest byte index. -/
theorem witness_DecodeOfEncode : (Instr.clrf 2 0xFF).wf = true ∧ (Instr.apply 2 0xFF 0xFF).wf = true ∧
    Instr.ledOn.wf = true := by decide
/-- EncodeOfDecode, with each `ADMIT_RAW`. -/
theorem witness_EncodeOfDecode : decode true 0x12FE00#24 = .ok (.clrf 2 0xFE) ∧ decode false 0x80000D#24 = .ok .ledOn := by
  decide
/-- IllegalWordsAreTheListedCauses and EveryCommandSendsOneFrame, the illegal words. -/
theorem witness_IllegalWord : (∃ e, decode true 0x000000#24 = .error e) ∧ (∃ e, decode false 0x100300#24 = .error e) :=
  ⟨⟨_, rfl⟩, ⟨_, rfl⟩⟩
/-- TwoSpellingsOneEffect, ClrfRule, SetfRule, ApplyRule, StopfRule: the legal byte indexes. -/
theorem witness_byteIndex : (0 : BitVec 2) ≠ 3#2 ∧ (2 : BitVec 2) ≠ 3#2 := by decide
/-- StepRunsTheDecodedCommand. -/
theorem witness_StepRunsTheDecodedCommand : readyS.inFlight = false ∧ readyS.host = .command 0x800010 :: [] ∧
    decode true 0x800010#24 = .ok .handClose := by decide
/-- IllegalWordChangesNothing, StatusCodes (illegal words), RefusedWord. -/
theorem witness_IllegalWordChangesNothing : Ready (stateOf bufM [] [.command 0x800015]) ∧
    (stateOf bufM [] [.command 0x800015]).host = .command 0x800015 :: [] ∧ decode true 0x800015#24 = .error .ledValueB ∧
    (∃ t, step (stateOf bufM [] [.command 0x800015]) = .next t) := ⟨⟨rfl, rfl⟩, rfl, rfl, _, rfl⟩
/-- ByteIndexThreeIsIllegal: the state, and a word for each raw operation. -/
theorem witness_ByteIndexThreeIsIllegal : Ready readyS ∧
    ([0x130300#24, 0x230001#24, 0x330302#24, 0x430300#24].all fun cw =>
      decide (cw.extractLsb' 20 4 ∈ [1#4, 2#4, 3#4, 4#4]) && decide (cw.extractLsb' 16 2 = 3#2)) = true :=
  ⟨⟨rfl, rfl⟩, by decide⟩
/-- ResetClearsTheBlock, ResetLeavesTheSurroundings, both acts; DeviceImageRule, its reset clause. -/
theorem witness_ResetClearsTheBlock : (stateOf bufF [] [.reset]).inFlight = false ∧
    (stateOf bufF [] [.reset]).host = .reset :: [] ∧ (stateOf bufF [] [.resetNow]).host = .resetNow :: [] ∧
    (∃ t, step (stateOf bufF [] [.reset]) = .next t) := ⟨rfl, rfl, rfl, _, rfl⟩
/-- IdleUntilACommand. -/
theorem witness_IdleUntilACommand : State.reset.inFlight = false ∧ State.reset.host = [] := by decide
/-- SilentTransportBlocksForever. -/
theorem witness_SilentTransportBlocksForever : Instr.handOpen.wf = true ∧ Ready readySilent ∧ readySilent.txSample = .silent ∧
    (∀ rest, readySilent.host ≠ .resetNow :: rest) := ⟨rfl, ⟨rfl, rfl⟩, rfl, fun _ h => (by cases h)⟩
/-- LateAnswerEndsTheCommand, OneCommandAtATime: each sample, with a word waiting. -/
theorem witness_LateAnswerEndsTheCommand : (busyOf bufM [.answered .err] [.command 0x500000]).inFlight = true ∧
    (∀ rest, (busyOf bufM [.answered .err] [.command 0x500000]).host ≠ .resetNow :: rest) ∧
    (busyOf bufM [.answered .err] [.command 0x500000]).txSample = .answered .err ∧
    (busyOf bufM [.quiet] []).txSample = .quiet ∧ (busyOf bufM [.silent] []).txSample = .silent ∧
    (busyOf bufM [.quiet] []).attached = true ∧ (∃ t, step (busyOf bufM [.quiet] []) = .next t) :=
  ⟨rfl, fun _ h => (by cases h), rfl, rfl, rfl, rfl, _, rfl⟩
/-- ResetDuringACommandIsRefused. -/
theorem witness_ResetDuringACommandIsRefused : (busyOf bufM [] [.resetNow]).inFlight = true ∧
    (busyOf bufM [] [.resetNow]).host = .resetNow :: [] := by decide
/-- NoTransportNoMeaning. -/
theorem witness_NoTransportNoMeaning : ({ readyS with attached := false } : State).attached = false ∧
    readyS.inFlight = false ∧ readyS.host = .command 0x800010 :: [] := by decide
/-- Effect, and with it the rule of every command: a ready state for each sample. -/
theorem witness_Effect : Ready readyS ∧ readyS.txSample = .answered .ok ∧ Ready readyErr ∧ readyErr.txSample = .answered .err ∧
    Ready readyQuiet ∧ readyQuiet.txSample = .quiet ∧ Ready readySilent ∧ readySilent.txSample = .silent :=
  ⟨⟨rfl, rfl⟩, rfl, ⟨rfl, rfl⟩, rfl, ⟨rfl, rfl⟩, rfl, ⟨rfl, rfl⟩, rfl⟩
/-- CommandsKeepTheRest, StatusCodes, TransportErrorKeepsTheWrite, DeviceImageRule, ArmFaultIsRecordedExactly. -/
theorem witness_StatusCodes : Instr.handOpen.wf = true ∧ (∃ t, exec .handOpen readyS = .next t) ∧
    (∃ t, exec .handOpen readyErr = .next t) := ⟨rfl, ⟨_, rfl⟩, ⟨_, rfl⟩⟩
/-- BlockLivesOnAfterTransportError: a failed frame, and the next one answered `ok`. -/
theorem witness_BlockLivesOn : Ready readyErr ∧ readyErr.txSample = .answered .err ∧
    ∃ t, exec .elbowUp readyErr = .next t ∧ t.txSample = .answered .ok := ⟨⟨rfl, rfl⟩, rfl, _, rfl, rfl⟩
/-- AnswersNeverReachTheBuffer, RunsAgreeWhateverIsAnswered: the answers differ. -/
theorem witness_RunsAgree : Ready readyS ∧ Ready readyErr ∧ Answering readyS ∧ Answering readyErr ∧
    readyS.buf = readyErr.buf ∧ readyS.host = readyErr.host ∧ readyS.answers ≠ readyErr.answers :=
  ⟨⟨rfl, rfl⟩, ⟨rfl, rfl⟩, answering_readyS, answering_readyErr, rfl, rfl, by decide⟩
/-- DeviceImageIsNeverRead, OneLogEntryPerStep. -/
theorem witness_step : ∃ t, step readyS = .next t := ⟨_, rfl⟩
/-- The refused words of ClrfRule, SetfRule, ApplyRule, StopfRule, StopAllRule: each cause by itself. -/
theorem witness_rawCauses :
    ((0x130300#24).extractLsb' 20 4 = 1#4 ∧ (0x130300#24).extractLsb' 16 2 = 3#2) ∧
    ((0x240001#24).extractLsb' 20 4 = 2#4 ∧ (0x240001#24).extractLsb' 18 2 ≠ 0#2) ∧
    ((0x200102#24).extractLsb' 20 4 = 2#4 ∧ (0x200102#24).extractLsb' 8 8 ≠ 0#8) ∧
    ((0x330302#24).extractLsb' 20 4 = 3#4 ∧ (0x330302#24).extractLsb' 16 2 = 3#2) ∧
    ((0x400301#24).extractLsb' 20 4 = 4#4 ∧ (0x400301#24).extractLsb' 0 8 ≠ 0#8) ∧
    ((0x500001#24).extractLsb' 20 4 = 5#4 ∧ (0x500001#24).extractLsb' 0 20 ≠ 0#20) := by decide
/-- StopAllRule (the six stops), RepeatedCommandsSendAgain. -/
theorem witness_RepeatedCommands : Instr.stopAll.wf = true ∧ Ready readyS ∧ Answering readyS :=
  ⟨rfl, ⟨rfl, rfl⟩, answering_readyS⟩
/-- RawOperationsFrame: each of its four commands, a byte it does not name, a bit no mask covers. -/
theorem witness_RawOperationsFrame : (∃ t, exec (.clrf 1 0x03) readyS = .next t) ∧ (∃ t, exec (.setf 1 0x02) readyS = .next t) ∧
    (∃ t, exec (.apply 1 0x03 0x02) readyS = .next t) ∧ (∃ t, exec (.stopf 1 0x03) readyS = .next t) ∧
    ByteIndex.ofBits 1 ≠ some .byte0 ∧ ByteIndex.ofBits 1 = some .byte1 ∧ ((0x03 : Byte) ||| 0x02).getLsbD 7 = false :=
  ⟨⟨_, rfl⟩, ⟨_, rfl⟩, ⟨_, rfl⟩, ⟨_, rfl⟩, by decide, rfl, rfl⟩
/-- FieldIsolation: two commands of one byte with disjoint masks, run in either order. -/
theorem witness_FieldIsolation :
    ([ByteIndex.byte0, .byte1, .byte2].all fun j =>
      Instr.shoulderUp.footprint.read j &&& Instr.elbowUp.footprint.read j == 0#8) = true ∧
    (∃ t u, exec .shoulderUp readyS = .next t ∧ exec .elbowUp t = .next u) ∧
    (∃ t u, exec .elbowUp readyS = .next t ∧ exec .shoulderUp t = .next u) ∧
    Segment.hand ≠ .wrist ∧ (descriptor .hand).bi = (descriptor .wrist).bi :=
  ⟨by decide, ⟨_, _, rfl, rfl⟩, ⟨_, _, rfl, rfl⟩, by decide, rfl⟩
/-- ApplyIsClearThenSet, the highest byte index. -/
theorem witness_ApplyIsClearThenSet : ByteIndex.ofBits 2 = some .byte2 ∧ Ready readyS ∧ Answering readyS :=
  ⟨rfl, ⟨rfl, rfl⟩, answering_readyS⟩
/-- LedOffSetsNothing, NamedCommandsFrame, FieldStateMachine. -/
theorem witness_NamedCommandsFrame : namedInstr .valueB .base = some .baseCcw ∧ (∃ t, exec .baseCcw readyS = .next t) ∧
    ByteIndex.byte0 ≠ (descriptor .base).bi ∧ (descriptor .base).sm.getLsbD 7 = false ∧ (∃ t, exec .ledOff readyS = .next t) ∧
    (∃ t, exec .stopAll readyS = .next t) := ⟨rfl, ⟨_, rfl⟩, by decide, by decide, ⟨_, rfl⟩, ⟨_, rfl⟩⟩
/-- FieldStateMachine: a command already in force (SHOULDER_UP on M). -/
theorem witness_inForce : ∃ t, exec .shoulderUp readyS = .next t ∧
    fieldState readyS.buf .shoulder = fieldState t.buf .shoulder := ⟨_, rfl, rfl⟩
/-- SourceProperties: (a) two fields of one byte, (b) APPLY twice, (c) a wrist moving up (M). -/
theorem witness_SourceProperties : Segment.hand ≠ .wrist ∧ (descriptor .hand).bi = (descriptor .wrist).bi ∧
    namedInstr .valueB .hand = some .handClose ∧ (∃ t, exec .handClose readyS = .next t) ∧
    (∃ t u, exec (.apply 0 0x03 0x01) readyS = .next t ∧ exec (.apply 0 0x03 0x01) t = .next u) ∧
    (descriptor .wrist).vb = some 0x08 ∧ namedInstr .valueB .wrist = some .wristDown ∧ Ready readyS ∧
    fieldState readyS.buf .wrist = .directionA :=
  ⟨by decide, rfl, rfl, ⟨_, rfl⟩, ⟨_, _, rfl, rfl⟩, rfl, rfl, ⟨rfl, rfl⟩, rfl⟩
/-- SimultaneousMotion: SHOULDER_UP and ELBOW_UP (S6). -/
theorem witness_SimultaneousMotion :
    ([(Action.valueA, Segment.shoulder), (.valueA, .elbow)].map fun p => namedInstr p.1 p.2) =
      [Instr.shoulderUp, .elbowUp].map some ∧
    (∀ p ∈ [(Action.valueA, Segment.shoulder), (.valueA, .elbow)], p.1 ≠ .stop) ∧
    ([(Action.valueA, Segment.shoulder), (.valueA, .elbow)].map Prod.snd).Nodup ∧
    (∀ p ∈ [(Action.valueA, Segment.shoulder), (.valueA, .elbow)], (descriptor p.2).bi = .byte0) ∧
    Ready State.reset ∧ Answering State.reset ∧ State.reset.buf = ⟨0x00, 0x00, 0x00⟩ :=
  ⟨rfl, by decide, by decide, by decide, ⟨rfl, rfl⟩, fun _ h => (by cases h), rfl⟩
/-- InvKeptByAllButSetfAndApply. -/
theorem witness_InvKept : readyS.buf.inv = true ∧ (∃ t, exec (.clrf 0 0x01) readyS = .next t) ∧
    (∀ bi vm, Instr.clrf 0 0x01 ≠ .setf bi vm) ∧ (∀ bi sm vm, Instr.clrf 0 0x01 ≠ .apply bi sm vm) :=
  ⟨by decide, ⟨_, rfl⟩, fun _ _ h => (by cases h), fun _ _ _ h => (by cases h)⟩
/-- NamedCommandsKeepTheArmSafe: a raw word, another word, a safe state that steps. -/
theorem witness_NamedCommandsKeepTheArmSafe : (0x100300#24).extractLsb' 20 4 ∈ [1#4, 2#4, 3#4, 4#4] ∧
    (0x800010#24).extractLsb' 20 4 ∉ [1#4, 2#4, 3#4, 4#4] ∧ ArmSafe readyS ∧ (∃ t, stepWith false readyS = .next t) :=
  ⟨by decide, by decide, ⟨by decide, rfl⟩, _, rfl⟩
/-- EveryInvBufferIsReached. -/
theorem witness_EveryInvBufferIsReached : (Buffer.mk 0xAA 0x02 0x01).inv = true := by decide
/-- RecordLawsKeptByEveryStep. -/
theorem witness_RecordLaws : FrameLaw State.reset ∧ StatusLaw State.reset ∧ ImageLaw State.reset ∧
    (∃ t, stepWith true State.reset = .next t) := ⟨fun _ => rfl, rfl, fun _ _ h => (by cases h), _, rfl⟩
/-- FrameLawOfRuns: two words, the second illegal. -/
theorem witness_FrameLawOfRuns : Ready (stateOf Config.resetValue [] [.command 0x80000D, .command 0x800015]) ∧
    Answering (stateOf Config.resetValue [] [.command 0x80000D, .command 0x800015]) ∧
    (stateOf Config.resetValue [] [.command 0x80000D, .command 0x800015]).log = [] ∧
    (stateOf Config.resetValue [] [.command 0x80000D, .command 0x800015]).buf = Config.resetValue ∧
    (stateOf Config.resetValue [] [.command 0x80000D, .command 0x800015]).host = [0x80000D#24, 0x800015#24].map .command :=
  ⟨⟨rfl, rfl⟩, fun _ h => (by cases h), rfl, rfl, rfl⟩
/-- UnansweredFrameLeavesTheArmUnknown, both samples. -/
theorem witness_Unanswered : Instr.wristUp.wf = true ∧ Ready readyQuiet ∧ readyQuiet.txSample = .quiet ∧
    Ready readySilent ∧ readySilent.txSample = .silent := ⟨rfl, ⟨rfl, rfl⟩, rfl, ⟨rfl, rfl⟩, rfl⟩
/-- BufferAccesses, the first address outside the buffer; LatchShowsTheBuffer, a presented frame. -/
theorem witness_accesses : 3 ≠ ByteIndex.byte2.toNat ∧ (busyOf bufM [] []).txValid = true := by decide

end Sys2Proof.Tests
end

/-! PROOFS. The scope family (spec 00_scope.md): the four stages every command runs (R10). -/

section

namespace Sys2Proof.Machine

/-- A ready block with a word at its port runs that word, taken off the host's list. -/
theorem stepWith_command {admitRaw : Bool} {cw : CmdWord} {s : State} {rest : List HostAct} (hr : s.inFlight = false)
    (hh : s.host = .command cw :: rest) : stepWith admitRaw s = runWord admitRaw cw { s with host := rest } := by
  have hdrop : s.dropAct = { s with host := rest } := by simp only [State.dropAct, hh, List.tail_cons]
  rw [stepWith_ready hr, ← hdrop]
  simp only [readyEvent, hh]

/-- A word that does not decode ends with IllegalCommand. -/
theorem runWord_error {admitRaw : Bool} {cw : CmdWord} {e : Illegal} (he : decode admitRaw cw = .error e) (s : State) :
    runWord admitRaw cw s = illegalCommand s := by
  simp only [runWord, he]

/-- Decode is the only gate: every word it rejects is accepted at the port and ends there (60_exceptions.md R93). -/
theorem refusedWord_of_decode_error {admitRaw : Bool} {cw : CmdWord} {e : Illegal} (he : decode admitRaw cw = .error e) :
    RefusedWord admitRaw cw := by
  refine ⟨⟨e, he⟩, fun s rest hr hh => ?_⟩
  have hready : Ready { s with host := rest } := hr
  have hstep : stepWith admitRaw s = .next { s with host := rest }.raiseIllegal := by
    rw [stepWith_command hr.2 hh, runWord_error he, illegalCommand_ready hready]
  exact ⟨_, hstep, rfl⟩

/-- Settles O19: a well-formed command is the skeleton over its mutation, whose one `send` completes it or leaves it waiting;
an illegal word ends at decode. -/
theorem everyCommandSendsOneFrame : Obligations.EveryCommandSendsOneFrame :=
  ⟨fun _ hw => effect_of_mutate hw fun _ => trivial, fun _ _ _ he => refusedWord_of_decode_error he⟩

end Sys2Proof.Machine

end

/-! PROOFS. The state family (spec 10_state.md): the latch output (R25), the buffer invariant (R20). -/

section

namespace Sys2Proof

/-! ## The buffer on the bus (R25) -/

theorem Buffer.pack_toNat (b : Buffer) : b.pack.toNat = b.b2.toNat * 65536 + b.b1.toNat * 256 + b.b0.toNat := by
  simp only [Buffer.pack, bitVec_append_toNat_add]; omega

/-- Each byte has its own eight lines of the bus. -/
theorem Buffer.extract_pack (b : Buffer) (i : ByteIndex) : b.pack.extractLsb' (8 * i.toNat) 8 = b.read i := by
  have := b.b0.isLt; have := b.b1.isLt; have := b.b2.isLt
  apply BitVec.eq_of_toNat_eq
  rw [bitVec_extract_toNat, Buffer.pack_toNat]
  cases i <;> simp only [ByteIndex.toNat, Buffer.read] <;> omega

end Sys2Proof

namespace Sys2Proof.Machine

/-- While a frame is presented `tx_data` is `q`. -/
theorem State.txData_of_txValid {s : State} (h : s.txValid = true) : s.txData = some s.q := if_pos h

/-- A well-formed command leaves its mutation of the buffer, its frame answered or still waiting. -/
theorem effect_mutate {i : Instr} (hw : i.wf = true) : Effect i fun b b' => b' = i.mutate b :=
  effect_of_mutate hw fun _ => rfl

/-- Settles O58: answered or waiting, a command leaves the same mutation in the buffer, and `q` and `tx_data` are views of
it. -/
theorem latchShowsTheBuffer : Obligations.LatchShowsTheBuffer := by
  refine ⟨fun s => ⟨s.buf.extract_pack .byte0, s.buf.extract_pack .byte1, s.buf.extract_pack .byte2⟩,
    fun s h => State.txData_of_txValid h, fun i s a rest hw hr => ?_⟩
  obtain ⟨t, ht, hbuf, -⟩ := (effect_mutate hw { s with answers := .answered a :: rest } hr).1 a rfl
  obtain ⟨t', ht', hbuf', hwait⟩ := (effect_mutate hw { s with answers := .quiet :: rest } hr).2 (.inl rfl)
  have hq : t.q = t'.q := congrArg Buffer.pack (hbuf.trans hbuf'.symm)
  exact ⟨t, t', ht, ht', hwait.busy, hwait.log, hq, hq ▸ hwait.txData⟩

end Sys2Proof.Machine

namespace Sys2Proof

/-! ## The mask operators seen through another mask (00_scope.md R8) -/

/-- Under the cleared mask the bits are the ones set. -/
theorem clearThenSet_and_same {sm v : Byte} (hv : v &&& ~~~sm = 0#8) (x : Byte) : clearThenSet sm v x &&& sm = v := by
  ext k hk
  have hvk : (v[k] && !sm[k]) = false := by simpa using congrArg (·[k]) hv
  simp only [clearThenSet, setBits, clearBits, BitVec.getElem_or, BitVec.getElem_and, BitVec.getElem_not]
  revert hvk
  cases v[k] <;> cases sm[k] <;> simp

/-- Under a mask disjoint from the cleared one nothing changes. -/
theorem clearThenSet_and_disjoint {sm v m : Byte} (hv : v &&& ~~~sm = 0#8) (hm : sm &&& m = 0#8) (x : Byte) :
    clearThenSet sm v x &&& m = x &&& m := by
  ext k hk
  have hvk : (v[k] && !sm[k]) = false := by simpa using congrArg (·[k]) hv
  have hmk : (sm[k] && m[k]) = false := by simpa using congrArg (·[k]) hm
  simp only [clearThenSet, setBits, clearBits, BitVec.getElem_or, BitVec.getElem_and, BitVec.getElem_not]
  revert hvk hmk
  cases v[k] <;> cases sm[k] <;> cases m[k] <;> simp

/-- A clear leaves some of the bits and sets none. -/
theorem clearBits_and_self (sm x : Byte) : clearBits sm x &&& x = clearBits sm x := by
  rw [clearBits, BitVec.and_comm x, BitVec.and_assoc, BitVec.and_self]

/-- What is full under a mask is full there in every byte with more bits. -/
theorem and_eq_mask_of_sub {x y m : Byte} (hsub : y &&& x = y) (h : y &&& m = m) : x &&& m = m :=
  calc x &&& m = x &&& (y &&& m) := by rw [h]
    _ = y &&& x &&& m := by rw [← BitVec.and_assoc, BitVec.and_comm x]
    _ = m := by rw [hsub, h]

/-- What is empty under a mask is empty there in every byte with fewer bits. -/
theorem and_eq_zero_of_sub {x y m : Byte} (hsub : y &&& x = y) (h : x &&& m = 0#8) : y &&& m = 0#8 := by
  rw [← hsub, BitVec.and_assoc, h, BitVec.and_zero]

/-! ## The state of a field (R16) -/

/-- The bits of a segment's field, in place. -/
def fieldBits (b : Buffer) (p : Segment) : Byte := b.read (descriptor p).bi &&& (descriptor p).sm

/-- A field's bits are one of its values: neutral, A or B. -/
def isFieldValue (p : Segment) (v : Byte) : Bool :=
  v == 0#8 || v == (descriptor p).va || some v == (descriptor p).vb

/-- A field is not invalid exactly when its bits are one of its values. -/
theorem fieldState_ne_invalid_iff (b : Buffer) (p : Segment) :
    fieldState b p ≠ .invalid ↔ isFieldValue p (fieldBits b p) = true := by
  unfold fieldState isFieldValue fieldBits
  split
  · simp [*]
  · split
    · simp [*]
    · split <;> simp [*]

/-- Of the bits under a stop mask only those of a two-bit field can fail to be a value, and only when both are set. -/
theorem isFieldValue_and_sm_iff (p : Segment) (x : Byte) :
    isFieldValue p (x &&& (descriptor p).sm) = true ↔
      ((descriptor p).vb = none ∨ x &&& (descriptor p).sm ≠ (descriptor p).sm) := by
  revert x; cases p <;> decide

/-- A value of a field lies inside its stop mask (R18). -/
theorem isFieldValue_inside {p : Segment} {v : Byte} (h : isFieldValue p v = true) : v &&& ~~~(descriptor p).sm = 0#8 := by
  simp only [isFieldValue, Bool.or_eq_true, beq_iff_eq] at h
  obtain (rfl | rfl) | h := h
  · exact BitVec.zero_and
  · exact descriptor_va_inside p
  · exact descriptor_vb_inside p v h.symm

/-! ## A named command on its own field, on another, and outside the fields (R18) -/

theorem fieldBits_onField_same {p : Segment} {v : Byte} (hv : isFieldValue p v = true) (b : Buffer) :
    fieldBits (Instr.mutate.onField p v b) p = v := by
  rw [fieldBits, Instr.mutate.onField, Buffer.read_write_same, clearThenSet_and_same (isFieldValue_inside hv)]

/-- Under a mask of any byte that the field written does not meet, nothing changes. -/
theorem read_onField_and_of_disjoint {p : Segment} {v : Byte} (hv : isFieldValue p v = true) (b : Buffer) {i : ByteIndex}
    {m : Byte} (hm : (descriptor p).bi = i → (descriptor p).sm &&& m = 0#8) :
    (Instr.mutate.onField p v b).read i &&& m = b.read i &&& m := by
  by_cases hi : (descriptor p).bi = i
  · subst hi
    rw [Instr.mutate.onField, Buffer.read_write_same, clearThenSet_and_disjoint (isFieldValue_inside hv) (hm rfl)]
  · rw [Instr.mutate.onField, Buffer.read_write_other _ _ _ _ (Ne.symm hi)]

theorem fieldBits_onField_other {p q : Segment} {v : Byte} (hv : isFieldValue p v = true) (hpq : p ≠ q) (b : Buffer) :
    fieldBits (Instr.mutate.onField p v b) q = fieldBits b q :=
  read_onField_and_of_disjoint hv b fun hb => descriptor_disjoint p q hpq hb

/-- The unallocated bits of a byte: those that no field covers (R15). -/
def spareMask : ByteIndex → Byte
  | .byte0 => 0x00
  | .byte1 => 0xFC
  | .byte2 => 0xFE

theorem descriptor_sm_and_spareMask (p : Segment) : (descriptor p).sm &&& spareMask (descriptor p).bi = 0#8 := by
  cases p <;> decide

/-! ## The buffer invariant (R20) -/

/-- No field is invalid exactly when no two-bit field has both bits set; the LED's field never is (R16). -/
theorem fieldState_ne_invalid_all_iff (b : Buffer) :
    (∀ p, fieldState b p ≠ .invalid) ↔
      b.b0 &&& 0x03#8 ≠ 0x03#8 ∧ b.b0 &&& 0x0C#8 ≠ 0x0C#8 ∧ b.b0 &&& 0x30#8 ≠ 0x30#8 ∧ b.b0 &&& 0xC0#8 ≠ 0xC0#8 ∧
        b.b1 &&& 0x03#8 ≠ 0x03#8 := by
  simp only [fieldState_ne_invalid_iff, fieldBits, isFieldValue_and_sm_iff]
  constructor
  · intro h
    have htwo (p : Segment) (hp : (descriptor p).vb ≠ none) := (h p).resolve_left hp
    exact ⟨htwo .hand nofun, htwo .wrist nofun, htwo .elbow nofun, htwo .shoulder nofun, htwo .base nofun⟩
  · rintro ⟨hhand, hwrist, helbow, hshoulder, hbase⟩ p
    cases p with
    | hand => exact .inr hhand
    | wrist => exact .inr hwrist
    | elbow => exact .inr helbow
    | shoulder => exact .inr hshoulder
    | base => exact .inr hbase
    | led => exact .inl rfl

/-- INV as R20 puts it in words. -/
theorem Buffer.inv_iff (b : Buffer) :
    b.inv = true ↔ (∀ p, fieldState b p ≠ .invalid) ∧ b.b1 &&& 0xFC#8 = 0x00#8 ∧ b.b2 &&& 0xFE#8 = 0x00#8 := by
  rw [fieldState_ne_invalid_all_iff]
  simp only [Buffer.inv, Bool.and_eq_true, bne_iff_ne, beq_iff_eq, and_assoc]

/-- INV through masks: every field holds one of its values and no byte has an unallocated bit set. -/
theorem Buffer.inv_iff_masks (b : Buffer) :
    b.inv = true ↔ (∀ p, isFieldValue p (fieldBits b p) = true) ∧ ∀ i, b.read i &&& spareMask i = 0#8 := by
  have hspare : (∀ i, b.read i &&& spareMask i = 0#8) ↔ b.b1 &&& 0xFC#8 = 0x00#8 ∧ b.b2 &&& 0xFE#8 = 0x00#8 := by
    refine ⟨fun h => ⟨h .byte1, h .byte2⟩, fun ⟨h1, h2⟩ i => ?_⟩
    cases i with
    | byte0 => exact BitVec.and_zero
    | byte1 => exact h1
    | byte2 => exact h2
  rw [Buffer.inv_iff, hspare]
  simp only [fieldState_ne_invalid_iff]

/-- STOPALL and reset establish INV (70_reset_and_hazards.md R122). -/
theorem Buffer.inv_zero : Buffer.zero.inv = true := rfl

/-- A named command's write keeps INV: its field takes a value, the rest of the buffer stays (70_reset_and_hazards.md R122). -/
theorem Buffer.inv_onField {p : Segment} {v : Byte} (hv : isFieldValue p v = true) {b : Buffer} (h : b.inv = true) :
    (Instr.mutate.onField p v b).inv = true := by
  obtain ⟨hfields, hspare⟩ := b.inv_iff_masks.mp h
  refine (Buffer.inv_iff_masks _).mpr ⟨fun q => ?_, fun i => ?_⟩
  · by_cases hpq : p = q
    · subst hpq; rw [fieldBits_onField_same hv]; exact hv
    · rw [fieldBits_onField_other hv hpq]; exact hfields q
  · rw [read_onField_and_of_disjoint hv b fun hi => hi ▸ descriptor_sm_and_spareMask p]; exact hspare i

/-- INV only forbids set bits: a buffer with fewer bits set keeps it. -/
theorem Buffer.inv_of_sub {b c : Buffer} (hsub : ∀ i, c.read i &&& b.read i = c.read i) (h : b.inv = true) :
    c.inv = true := by
  obtain ⟨hfields, hspare⟩ := b.inv_iff_masks.mp h
  refine (Buffer.inv_iff_masks c).mpr ⟨fun p => ?_, fun i => and_eq_zero_of_sub (hsub i) (hspare i)⟩
  have hp := hfields p
  rw [fieldBits, isFieldValue_and_sm_iff] at hp ⊢
  exact hp.imp_right fun hne hfull => hne (and_eq_mask_of_sub (hsub _) hfull)

/-- A raw clear keeps INV, whatever byte index and mask it is given. -/
theorem Buffer.inv_raw_clearBits (bi : BitVec 2) (sm : Byte) {b : Buffer} (h : b.inv = true) :
    (Instr.mutate.raw bi (clearBits sm) b).inv = true := by
  unfold Instr.mutate.raw
  split
  next i _ =>
    refine Buffer.inv_of_sub (fun j => ?_) h
    by_cases hj : j = i
    · subst hj; rw [Buffer.read_write_same, clearBits_and_self]
    · rw [Buffer.read_write_other _ _ _ _ hj, BitVec.and_self]
  · exact h

/-- No mutation but SETF's and APPLY's breaks INV. -/
theorem Instr.inv_mutate {i : Instr} (hsetf : ∀ bi vm, i ≠ .setf bi vm) (happly : ∀ bi sm vm, i ≠ .apply bi sm vm)
    {b : Buffer} (h : b.inv = true) : (i.mutate b).inv = true := by
  cases i with
  | clrf bi sm => exact Buffer.inv_raw_clearBits bi sm h
  | stopf bi sm => exact Buffer.inv_raw_clearBits bi sm h
  | setf bi vm => exact absurd rfl (hsetf bi vm)
  | apply bi sm vm => exact absurd rfl (happly bi sm vm)
  | stopAll => exact Buffer.inv_zero
  | _ => exact Buffer.inv_onField (by decide) h

/-! ## The 486 buffers with INV -/

/-- The part of INV that speaks of one byte. -/
def byteInv : ByteIndex → Byte → Bool
  | .byte0, x => (x &&& 0x03#8 != 0x03#8) && (x &&& 0x0C#8 != 0x0C#8) && (x &&& 0x30#8 != 0x30#8) && (x &&& 0xC0#8 != 0xC0#8)
  | .byte1, x => (x &&& 0x03#8 != 0x03#8) && (x &&& 0xFC#8 == 0x00#8)
  | .byte2, x => x &&& 0xFE#8 == 0x00#8

theorem Buffer.inv_eq_byteInv (b : Buffer) :
    b.inv = (byteInv .byte0 b.b0 && (byteInv .byte1 b.b1 && byteInv .byte2 b.b2)) := by
  simp only [Buffer.inv, byteInv, Bool.and_assoc]

/-- The values a byte may take under INV. -/
def invBytes (i : ByteIndex) : List Byte := ((List.finRange 256).map BitVec.ofFin).filter (byteInv i)

theorem mem_invBytes (i : ByteIndex) (x : Byte) : x ∈ invBytes i ↔ byteInv i x = true := by
  rw [invBytes, List.mem_filter]
  exact and_iff_right (List.mem_map.mpr ⟨x.toFin, List.mem_finRange _, rfl⟩)

theorem nodup_invBytes (i : ByteIndex) : (invBytes i).Nodup :=
  ((List.nodup_finRange 256).map fun _ _ h => congrArg BitVec.toFin h).filter _

/-- Four fields of three values, one field of three values, one field of two. -/
theorem length_invBytes :
    (invBytes .byte0).length = 3 ^ 4 ∧ (invBytes .byte1).length = 3 ∧ (invBytes .byte2).length = 2 := by decide

/-- Every combination of bytes that INV allows. -/
def invBuffers : List Buffer :=
  (invBytes .byte0 ×ˢ invBytes .byte1 ×ˢ invBytes .byte2).map fun p => ⟨p.1, p.2.1, p.2.2⟩

theorem mem_invBuffers (b : Buffer) : b ∈ invBuffers ↔ b.inv = true := by
  obtain ⟨b0, b1, b2⟩ := b
  simp [invBuffers, mem_invBytes, Buffer.inv_eq_byteInv]

theorem nodup_invBuffers : invBuffers.Nodup := by
  refine ((nodup_invBytes _).product ((nodup_invBytes _).product (nodup_invBytes _))).map fun p q h => ?_
  obtain ⟨h0, h1, h2⟩ := Buffer.mk.inj h
  exact Prod.ext h0 (Prod.ext h1 h2)

theorem length_invBuffers : invBuffers.length = 486 := by
  obtain ⟨h0, h1, h2⟩ := length_invBytes
  rw [invBuffers, List.length_map, List.length_product, List.length_product, h0, h1, h2]; norm_num

end Sys2Proof

namespace Sys2Proof.Machine

/-- A well-formed command in a ready state has a next state, with its mutation of the buffer. -/
theorem exec_ready_buf {i : Instr} {s : State} (hw : i.wf = true) (hr : Ready s) :
    ∃ t, exec i s = .next t ∧ t.buf = i.mutate s.buf :=
  ⟨_, (exec_eq_command i hw s).trans (command_ready hr), by rw [State.send_buf, State.withBuf_buf]⟩

/-- INV is kept by every command other than SETF and APPLY, run or not accepted. -/
theorem exec_keeps_inv {i : Instr} {s t : State} (hsetf : ∀ bi vm, i ≠ .setf bi vm)
    (happly : ∀ bi sm vm, i ≠ .apply bi sm vm) (h : s.buf.inv = true) (ht : exec i s = .next t) : t.buf.inv = true := by
  obtain ⟨-, hb⟩ | ⟨-, -, hb⟩ | ⟨-, -, hb⟩ := exec_buf ht
  · rw [hb]; exact h
  · rw [hb]; exact h
  · rw [hb]; exact Instr.inv_mutate hsetf happly h

/-- Both bits of the hand, set from reset by SETF or by APPLY, break INV. -/
theorem exec_from_reset_breaks_inv {i : Instr} (hw : i.wf = true) (hm : i.mutate Config.resetValue = ⟨0x03, 0x00, 0x00⟩) :
    ∃ s t, s.buf.inv = true ∧ exec i s = .next t ∧ t.buf.inv = false := by
  obtain ⟨t, ht, hb⟩ := exec_ready_buf (s := State.reset) hw ⟨rfl, rfl⟩
  exact ⟨State.reset, t, rfl, ht, by rw [hb, State.reset_buf, hm]; rfl⟩

/-- Settles O47: a named command gives its field one of its values and leaves the rest, a clear only takes bits away; SETF and
APPLY may set both bits of a field; the 486 buffers are the products of the bytes INV allows. -/
theorem invKeptByAllButSetfAndApply : Obligations.InvKeptByAllButSetfAndApply :=
  ⟨Buffer.inv_iff, Buffer.inv_zero, fun _ _ _ => exec_keeps_inv,
    ⟨0, 0x03, exec_from_reset_breaks_inv rfl rfl⟩, ⟨0, 0x00, 0x03, exec_from_reset_breaks_inv rfl rfl⟩,
    invBuffers, nodup_invBuffers, length_invBuffers, mem_invBuffers⟩

end Sys2Proof.Machine

end

/-! PROOFS. The encoding family (spec 30_encoding.md): two spellings of one effect (R60). -/

section

namespace Sys2Proof

/-- A word of format R with a legal `BI` and a zero unused operand passes the checks of R59. -/
theorem decodeRaw_formatR {bi : BitVec 2} (hbi : bi ≠ 3#2) (op : BitVec 4) (sm vm : Byte) (i : Instr) :
    decodeRaw true (formatR op bi sm vm) 0#8 i = .ok i := by
  simp [decodeRaw, hbi]

theorem decode_encode_clrf {bi : BitVec 2} (hbi : bi ≠ 3#2) (sm : Byte) :
    decode true (encode (.clrf bi sm)) = .ok (.clrf bi sm) := by
  simp [decode, encode, decodeRaw_formatR hbi]

theorem decode_encode_stopf {bi : BitVec 2} (hbi : bi ≠ 3#2) (sm : Byte) :
    decode true (encode (.stopf bi sm)) = .ok (.stopf bi sm) := by
  simp [decode, encode, decodeRaw_formatR hbi]

/-- Commands whose words decode to themselves have different words when they differ. -/
theorem encode_ne_of_decode {i j : Instr} (hi : decode true (encode i) = .ok i) (hj : decode true (encode j) = .ok j)
    (hij : i ≠ j) : encode i ≠ encode j := fun h =>
  hij (Except.ok.inj (hi.symm.trans ((congrArg (decode true) h).trans hj)))

end Sys2Proof

namespace Sys2Proof.Machine

/-- Well-formed commands with one mutation have one outcome in every state. -/
theorem exec_eq_of_mutate_eq {i j : Instr} (hi : i.wf = true) (hj : j.wf = true) (h : i.mutate = j.mutate) (s : State) :
    exec i s = exec j s := by
  rw [exec_eq_command i hi, exec_eq_command j hj, h]

/-- CLRF and STOPF are one raw operation, at an illegal `BI` too. -/
theorem exec_clrf_eq_stopf (bi : BitVec 2) (sm : Byte) (s : State) : exec (.clrf bi sm) s = exec (.stopf bi sm) s := rfl

/-- Settles O6: HAND_OPEN and APPLY 0, 0x03, 0x02 mutate the buffer alike, CLRF and STOPF are one operation; each of their words
decodes to its own command, so the words differ. -/
theorem twoSpellingsOneEffect : Obligations.TwoSpellingsOneEffect := by
  refine ⟨exec_eq_of_mutate_eq rfl rfl rfl, exec_clrf_eq_stopf, by decide, by decide, fun bi sm hbi => ?_⟩
  have hclrf := decode_encode_clrf hbi sm
  have hstopf := decode_encode_stopf hbi sm
  exact ⟨hclrf, hstopf, encode_ne_of_decode hclrf hstopf Instr.noConfusion⟩

end Sys2Proof.Machine

end

/-! PROOFS. The field family (spec 40_field_operations.md): the words of the raw operations and of STOPALL and what they do to
the buffer (R63 to R67), the words refused beside them (60_exceptions.md R94), APPLY beside CLRF then SETF (R69). -/

section

namespace Sys2Proof

/-! ## A raw operation on the byte it names -/

theorem biLegal_of_ne_three {bi : BitVec 2} (hbi : bi ≠ 3#2) : biLegal bi = true := bne_iff_ne.mpr hbi

theorem biLegal_of_ofBits {bi : BitVec 2} {j : ByteIndex} (hj : ByteIndex.ofBits bi = some j) : biLegal bi = true := by
  rw [← ByteIndex.ofBits_isSome, hj, Option.isSome_some]

theorem Instr.mutate.raw_of_ofBits {bi : BitVec 2} {j : ByteIndex} (hj : ByteIndex.ofBits bi = some j) (f : Byte → Byte)
    (b : Buffer) : Instr.mutate.raw bi f b = b.write j (f (b.read j)) := by
  simp only [Instr.mutate.raw, hj]

/-- Setting bits of a byte after clearing some of it is one clear-then-set (R69). -/
theorem Instr.mutate.raw_setBits_raw_clearBits (bi : BitVec 2) (sm vm : Byte) (b : Buffer) :
    Instr.mutate.raw bi (setBits vm) (Instr.mutate.raw bi (clearBits sm) b) = Instr.mutate.raw bi (clearThenSet sm vm) b := by
  cases hj : ByteIndex.ofBits bi with
  | none => simp only [Instr.mutate.raw, hj]
  | some j =>
    simp only [Instr.mutate.raw_of_ofBits hj, Buffer.read_write_same, Buffer.write_write_same, clearThenSet]

/-! ## The mask operators bit by bit (00_scope.md R8) -/

theorem clearBits_getLsbD (sm x : Byte) {k : Nat} (hk : k < 8) :
    (clearBits sm x).getLsbD k = if sm.getLsbD k then false else x.getLsbD k := by
  rw [clearBits, BitVec.getLsbD_and, BitVec.getLsbD_not]
  cases sm.getLsbD k <;> simp [hk]

theorem setBits_getLsbD (vm x : Byte) (k : Nat) :
    (setBits vm x).getLsbD k = if vm.getLsbD k then true else x.getLsbD k := by
  rw [setBits, BitVec.getLsbD_or]
  cases vm.getLsbD k <;> simp

/-- The set wins over the clear (R65). -/
theorem clearThenSet_getLsbD (sm vm x : Byte) {k : Nat} (hk : k < 8) :
    (clearThenSet sm vm x).getLsbD k = if vm.getLsbD k then true else if sm.getLsbD k then false else x.getLsbD k := by
  rw [clearThenSet, setBits_getLsbD, clearBits_getLsbD sm x hk]

/-! ## The words of the raw operations (30_encoding.md R49, R55) -/

/-- Format R as its four fields in place. -/
theorem formatR_eq_or (op : BitVec 4) (bi : BitVec 2) (sm vm : Byte) :
    formatR op bi sm vm =
      (op.setWidth 24 <<< 20) ||| (bi.setWidth 24 <<< 16) ||| (sm.setWidth 24 <<< 8) ||| vm.setWidth 24 := by
  rw [← BitVec.setWidth_eq (formatR op bi sm vm), formatR]
  simp only [BitVec.setWidth_append_eq_shiftLeft_setWidth_or, BitVec.shiftLeft_or_distrib, ← BitVec.shiftLeft_add,
    BitVec.setWidth_zero, BitVec.or_zero]

theorem encode_clrf_eq_or (bi : BitVec 2) (sm : Byte) :
    encode (.clrf bi sm) = 0x100000#24 ||| (bi.setWidth 24 <<< 16) ||| (sm.setWidth 24 <<< 8) := by
  rw [encode, formatR_eq_or, BitVec.setWidth_zero, BitVec.or_zero]; rfl

theorem encode_setf_eq_or (bi : BitVec 2) (vm : Byte) :
    encode (.setf bi vm) = 0x200000#24 ||| (bi.setWidth 24 <<< 16) ||| vm.setWidth 24 := by
  rw [encode, formatR_eq_or, BitVec.setWidth_zero, BitVec.zero_shiftLeft, BitVec.or_zero]; rfl

theorem encode_apply_eq_or (bi : BitVec 2) (sm vm : Byte) :
    encode (.apply bi sm vm) =
      0x300000#24 ||| (bi.setWidth 24 <<< 16) ||| (sm.setWidth 24 <<< 8) ||| vm.setWidth 24 :=
  formatR_eq_or 3#4 bi sm vm

theorem encode_stopf_eq_or (bi : BitVec 2) (sm : Byte) :
    encode (.stopf bi sm) = 0x400000#24 ||| (bi.setWidth 24 <<< 16) ||| (sm.setWidth 24 <<< 8) := by
  rw [encode, formatR_eq_or, BitVec.setWidth_zero, BitVec.or_zero]; rfl

theorem decode_encode_setf {bi : BitVec 2} (hbi : bi ≠ 3#2) (vm : Byte) :
    decode true (encode (.setf bi vm)) = .ok (.setf bi vm) := by
  simp [decode, encode, decodeRaw_formatR hbi]

theorem decode_encode_apply {bi : BitVec 2} (hbi : bi ≠ 3#2) (sm vm : Byte) :
    decode true (encode (.apply bi sm vm)) = .ok (.apply bi sm vm) := by
  simp [decode, encode, decodeRaw_formatR hbi]

/-! ## The words with a legal `OP` that are refused (30_encoding.md R57, R58, R61) -/

section
variable (admitRaw : Bool) {cw : CmdWord}

theorem decode_of_op_clrf (h : opField cw = 1#4) :
    decode admitRaw cw = decodeRaw admitRaw cw (vmField cw) (.clrf (biField cw) (smField cw)) := by
  rw [decode, h]; rfl

theorem decode_of_op_setf (h : opField cw = 2#4) :
    decode admitRaw cw = decodeRaw admitRaw cw (smField cw) (.setf (biField cw) (vmField cw)) := by
  rw [decode, h]; rfl

theorem decode_of_op_apply (h : opField cw = 3#4) :
    decode admitRaw cw = decodeRaw admitRaw cw 0#8 (.apply (biField cw) (smField cw) (vmField cw)) := by
  rw [decode, h]; rfl

theorem decode_of_op_stopf (h : opField cw = 4#4) :
    decode admitRaw cw = decodeRaw admitRaw cw (vmField cw) (.stopf (biField cw) (smField cw)) := by
  rw [decode, h]; rfl

theorem decode_of_op_stopAll (h : opField cw = 5#4) : decode admitRaw cw = decodeStopAll cw := by
  rw [decode, h]; rfl

end

/-- Each check of format R refuses the word by itself. -/
theorem decodeRaw_error {admitRaw : Bool} {cw : CmdWord} {unused : Byte} (i : Instr)
    (h : biField cw = 3#2 ∨ z2Field cw ≠ 0#2 ∨ unused ≠ 0#8 ∨ admitRaw = false) :
    ∃ e, decodeRaw admitRaw cw unused i = .error e := by
  unfold decodeRaw
  split_ifs with hadmit hz2 hbi hunused
  case neg => exact absurd h (by tauto)
  all_goals exact ⟨_, rfl⟩

end Sys2Proof

namespace Sys2Proof.Machine

/-- A word whose `OP` selects format R and that fails one of the format's checks is refused. -/
theorem refusedWord_of_decodeRaw {admitRaw : Bool} {cw : CmdWord} {unused : Byte} {i : Instr}
    (hd : decode admitRaw cw = decodeRaw admitRaw cw unused i)
    (h : biField cw = 3#2 ∨ z2Field cw ≠ 0#2 ∨ unused ≠ 0#8 ∨ admitRaw = false) : RefusedWord admitRaw cw := by
  obtain ⟨e, he⟩ := decodeRaw_error i h
  exact refusedWord_of_decode_error (hd.trans he)

/-! ## A raw operation in a ready state -/

/-- A raw rewrite of a byte is bitwise if its function is. -/
theorem byteRewritten_raw {bi : BitVec 2} (hbi : bi ≠ 3#2) {f : Byte → Byte} {g : Nat → Bool → Bool}
    (hf : ∀ x, ∀ k < 8, (f x).getLsbD k = g k (x.getLsbD k)) (b : Buffer) :
    ByteRewritten bi g b (Instr.mutate.raw bi f b) := by
  obtain ⟨j, hj⟩ := ByteIndex.ofBits_of_legal (biLegal_of_ne_three hbi)
  rw [Instr.mutate.raw_of_ofBits hj]
  refine ⟨j, hj, fun k hk => ?_, fun j' hne => Buffer.read_write_other _ _ _ _ hne⟩
  rw [Buffer.read_write_same]; exact hf _ k hk

theorem effect_clrf {bi : BitVec 2} (hbi : bi ≠ 3#2) (sm : Byte) :
    Effect (.clrf bi sm) (ByteRewritten bi fun k x => if sm.getLsbD k then false else x) :=
  effect_of_mutate (i := .clrf bi sm) (biLegal_of_ne_three hbi)
    (byteRewritten_raw hbi fun x _ hk => clearBits_getLsbD sm x hk)

theorem effect_setf {bi : BitVec 2} (hbi : bi ≠ 3#2) (vm : Byte) :
    Effect (.setf bi vm) (ByteRewritten bi fun k x => if vm.getLsbD k then true else x) :=
  effect_of_mutate (i := .setf bi vm) (biLegal_of_ne_three hbi)
    (byteRewritten_raw hbi fun x k _ => setBits_getLsbD vm x k)

theorem effect_apply {bi : BitVec 2} (hbi : bi ≠ 3#2) (sm vm : Byte) :
    Effect (.apply bi sm vm)
      (ByteRewritten bi fun k x => if vm.getLsbD k then true else if sm.getLsbD k then false else x) :=
  effect_of_mutate (i := .apply bi sm vm) (biLegal_of_ne_three hbi)
    (byteRewritten_raw hbi fun x _ hk => clearThenSet_getLsbD sm vm x hk)

/-- Commands with one outcome in every state have one effect. -/
theorem Effect.congr {i j : Instr} {P : Buffer → Buffer → Prop} (h : ∀ s, exec i s = exec j s) (he : Effect i P) :
    Effect j P := fun s hr => h s ▸ he s hr

/-! ## Commands in a row with a transport that answers -/

theorem mem_of_mem_dropSample {x : TxSample} : ∀ {l : List TxSample}, x ∈ dropSample l → x ∈ l
  | [], h => h
  | .silent :: _, h => h
  | .quiet :: _, h => List.mem_cons_of_mem _ h
  | .answered _ :: _, h => List.mem_cons_of_mem _ h

theorem Answering.txSample {s : State} (h : Answering s) : ∃ a, s.txSample = .answered a := by
  unfold State.txSample
  split
  · exact ⟨_, rfl⟩
  next x _ hx => exact h x (hx ▸ List.mem_cons_self)

/-- Answered, a well-formed command leaves its mutation, one log entry, and a block ready for the next. -/
theorem exec_answering {i : Instr} {s : State} (hw : i.wf = true) (hr : Ready s) (ha : Answering s) :
    ∃ t a, exec i s = .next t ∧ t.buf = i.mutate s.buf ∧ t.log = s.log ++ [⟨t.buf, a⟩] ∧ Ready t ∧ Answering t := by
  obtain ⟨a, hs⟩ := ha.txSample
  have hsend := State.send_answered ((State.txSample_withBuf (i.mutate s.buf) s).trans hs)
  refine ⟨_, a, (exec_eq_command i hw s).trans ((command_ready hr).trans (congrArg _ hsend)), rfl, rfl, ⟨hr.1, rfl⟩, ?_⟩
  exact fun x hx => ha x (mem_of_mem_dropSample hx)

/-- Settles O34: each of the three commands is one mutation and one answered frame; the second mutation of the pair writes over
the first what APPLY writes at once. -/
theorem applyIsClearThenSet : Obligations.ApplyIsClearThenSet := by
  intro bi sm vm j s hj hr ha
  have hw := biLegal_of_ofBits hj
  obtain ⟨t, a, ht, htbuf, htlog, -⟩ := exec_answering (i := .apply bi sm vm) hw hr ha
  obtain ⟨u, b, hu, hubuf, hulog, hur, hua⟩ := exec_answering (i := .clrf bi sm) hw hr ha
  obtain ⟨v, c, hv, hvbuf, hvlog, -⟩ := exec_answering (i := .setf bi vm) hw hur hua
  have hvt : v.buf = t.buf := by
    rw [hvbuf, hubuf, htbuf]; exact Instr.mutate.raw_setBits_raw_clearBits bi sm vm s.buf
  have hvlog' : v.log = s.log ++ [⟨u.buf, b⟩, ⟨v.buf, c⟩] := by
    rw [hvlog, hulog, List.append_assoc, List.singleton_append]
  exact ⟨t, u, v, a, b, c, ht, hu, hv, hvt, htlog, hvlog', hubuf.trans (Instr.mutate.raw_of_ofBits hj _ _),
    htbuf.trans (Instr.mutate.raw_of_ofBits hj _ _)⟩

/-- Answered, well-formed commands in a row run to the end: their mutations one after the other, one log entry for each. -/
theorem execAll_answering : ∀ {is : List Instr} {s : State}, (∀ i ∈ is, i.wf = true) → Ready s → Answering s →
    ∃ t, execAll is s = .next t ∧ t.buf = is.foldl (fun b i => i.mutate b) s.buf ∧ t.log.length = s.log.length + is.length
  | [], s, _, _, _ => ⟨s, rfl, rfl, rfl⟩
  | i :: is, s, hw, hr, ha => by
    obtain ⟨hwi, hwis⟩ := List.forall_mem_cons.mp hw
    obtain ⟨u, a, hu, hubuf, hulog, hur, hua⟩ := exec_answering hwi hr ha
    obtain ⟨t, ht, htbuf, htlog⟩ := execAll_answering hwis hur hua
    refine ⟨t, ?_, ?_, ?_⟩
    · simp only [execAll, hu, ht]
    · rw [htbuf, hubuf, List.foldl_cons]
    · rw [htlog, hulog, List.length_append, List.length_singleton, List.length_cons]; omega

/-! ## The rules of the field operations -/

/-- Settles O27: the word is CLRF's, its write is `clearBits` on the named byte; each failed check of format R refuses a word. -/
theorem clrfRule : Obligations.ClrfRule :=
  ⟨fun bi sm hbi => ⟨encode_clrf_eq_or bi sm ▸ decode_encode_clrf hbi sm, effect_clrf hbi sm⟩,
    fun admitRaw _ hop h => refusedWord_of_decodeRaw (decode_of_op_clrf admitRaw hop) h⟩

/-- Settles O28: the word is SETF's, its write is `setBits` on the named byte; each failed check of format R refuses a word. -/
theorem setfRule : Obligations.SetfRule :=
  ⟨fun bi vm hbi => ⟨encode_setf_eq_or bi vm ▸ decode_encode_setf hbi vm, effect_setf hbi vm⟩,
    fun admitRaw _ hop h => refusedWord_of_decodeRaw (decode_of_op_setf admitRaw hop) h⟩

/-- Settles O29: the word is APPLY's, its one write is `clearThenSet` on the named byte; APPLY has no unused operand, so the
other checks of format R remain. -/
theorem applyRule : Obligations.ApplyRule :=
  ⟨fun bi sm vm hbi => ⟨encode_apply_eq_or bi sm vm ▸ decode_encode_apply hbi sm vm, effect_apply hbi sm vm⟩,
    fun admitRaw _ hop h =>
      refusedWord_of_decodeRaw (decode_of_op_apply admitRaw hop) (h.imp_right (Or.imp_right Or.inr))⟩

/-- Settles O30: the word is STOPF's; in every state it is CLRF, whose effect it has. -/
theorem stopfRule : Obligations.StopfRule :=
  ⟨fun bi sm hbi => ⟨encode_stopf_eq_or bi sm ▸ decode_encode_stopf hbi sm,
      (effect_clrf hbi sm).congr (exec_clrf_eq_stopf bi sm)⟩,
    fun bi sm s => (exec_clrf_eq_stopf bi sm s).symm,
    fun admitRaw _ hop h => refusedWord_of_decodeRaw (decode_of_op_stopf admitRaw hop) h⟩

/-! ## STOPALL and the six stops (R67) -/

theorem fieldState_zero (p : Segment) : fieldState Buffer.zero p = .stopped := by cases p <;> rfl

theorem refusedWord_stopAll (admitRaw : Bool) {cw : CmdWord} (hop : opField cw = 5#4) (hz : z20Field cw ≠ 0#20) :
    RefusedWord admitRaw cw :=
  refusedWord_of_decode_error ((decode_of_op_stopAll admitRaw hop).trans (if_pos hz))

/-- The six individual stops, in the order of their selectors. -/
def sixStops : List Instr := [.handStop, .wristStop, .elbowStop, .shoulderStop, .baseStop, .ledOff]

/-- The stop masks of a byte together are its allocated bits: all of byte 0, two of byte 1, one of byte 2. -/
theorem foldl_mutate_sixStops (b : Buffer) :
    sixStops.foldl (fun b i => i.mutate b) b = ⟨0x00, b.b1 &&& 0xFC, b.b2 &&& 0xFE⟩ := by
  have hb0 : clearBits 0xC0 (clearBits 0x30 (clearBits 0x0C (clearBits 0x03 b.b0))) = 0x00 := by
    simp only [clearBits, BitVec.and_assoc]; exact BitVec.and_zero
  simp only [sixStops, List.foldl, Instr.mutate, Instr.mutate.onField, clearThenSet_zero, descriptor, Buffer.read,
    Buffer.write, hb0]
  rfl

/-- Settles O31: STOPALL's mutation is the zero buffer whatever the buffer was, its word is the only one of `OP` 5; the six stops
are six answered commands, which together clear the allocated bits. -/
theorem stopAllRule : Obligations.StopAllRule := by
  refine ⟨fun _ => rfl, effect_of_mutate rfl fun _ => ⟨rfl, Buffer.inv_zero, fieldState_zero⟩,
    fun admitRaw _ => refusedWord_stopAll admitRaw, fun s hr ha => ?_⟩
  obtain ⟨t, ht, hbuf, hlog⟩ := execAll_answering (is := sixStops) (by decide) hr ha
  exact ⟨t, ht, hbuf.trans (foldl_mutate_sixStops s.buf), hlog⟩

end Sys2Proof.Machine

end

/-! PROOFS. The segment family (spec 41_segment_commands.md): the common part of the fifteen commands (R70), then the rules of each
segment (R71 to R85). -/

section

namespace Sys2Proof

/-! ## The word of a named command (30_encoding.md R51, R59) -/

theorem decode_of_op_named (admitRaw : Bool) {cw : CmdWord} (h : opField cw = 8#4) :
    decode admitRaw cw = decodeNamed cw := by
  rw [decode, h]; rfl

theorem decodeNamed_formatN {act : Action} {seg : Segment} {i : Instr} (hi : namedInstr act seg = some i) :
    decodeNamed (formatN act seg) = .ok i := by
  simp [decodeNamed, hi]

/-- The word of a named command is accepted whatever `ADMIT_RAW` is (R70). -/
theorem decode_formatN {act : Action} {seg : Segment} {i : Instr} (hi : namedInstr act seg = some i) (admitRaw : Bool) :
    decode admitRaw (formatN act seg) = .ok i :=
  (decode_of_op_named admitRaw (opField_formatN act seg)).trans (decodeNamed_formatN hi)

theorem wf_of_namedInstr {act : Action} {seg : Segment} {i : Instr} (hi : namedInstr act seg = some i) : i.wf = true := by
  cases act <;> cases seg <;> cases hi <;> rfl

/-! ## A named command as a raw operation (R70) -/

/-- What an action puts into a segment's field: nothing, or a value of the segment's row of `DESC` (30_encoding.md R54). -/
def Action.value : Action → Segment → Option Byte
  | .stop, _ => some 0x00
  | .valueA, seg => some (descriptor seg).va
  | .valueB, seg => (descriptor seg).vb

/-- The template of R70: a named command writes the value of its action into the field of its segment. -/
theorem mutate_of_namedInstr {act : Action} {seg : Segment} {i : Instr} {v : Byte} (hi : namedInstr act seg = some i)
    (hv : act.value seg = some v) : i.mutate = Instr.mutate.onField seg v := by
  cases act <;> cases seg <;> cases hi <;> cases hv <;> rfl

/-- A write of a field's bits is APPLY's, with the field's stop mask in the field's byte. -/
theorem Instr.mutate.onField_eq_raw {seg : Segment} {bi : BitVec 2} (hbi : ByteIndex.ofBits bi = some (descriptor seg).bi)
    (v : Byte) : Instr.mutate.onField seg v = Instr.mutate.raw bi (clearThenSet (descriptor seg).sm v) := by
  funext b
  rw [Instr.mutate.raw_of_ofBits hbi, Instr.mutate.onField]

/-- With no bit to set, it is STOPF's. -/
theorem Instr.mutate.onField_zero_eq_raw {seg : Segment} {bi : BitVec 2}
    (hbi : ByteIndex.ofBits bi = some (descriptor seg).bi) :
    Instr.mutate.onField seg 0x00 = Instr.mutate.raw bi (clearBits (descriptor seg).sm) := by
  rw [Instr.mutate.onField_eq_raw hbi, funext (clearThenSet_zero (descriptor seg).sm)]

/-! ## The mask operators on a run of bits (00_scope.md R8) -/

section
variable {sm v : Byte} {lo len : Nat} (x : Byte)

/-- A run of bits that the mask covers reads zero after a clear. -/
theorem clearBits_extract_inside (h : (~~~sm).extractLsb' lo len = 0#len) :
    (clearBits sm x).extractLsb' lo len = 0#len := by
  rw [clearBits, BitVec.extractLsb'_and, h, BitVec.and_zero]

/-- A run of bits that the mask does not meet stays. -/
theorem clearBits_extract_outside (h : (~~~sm).extractLsb' lo len = BitVec.allOnes len) :
    (clearBits sm x).extractLsb' lo len = x.extractLsb' lo len := by
  rw [clearBits, BitVec.extractLsb'_and, h, BitVec.and_allOnes]

/-- A run of bits that the mask covers reads what is set. -/
theorem clearThenSet_extract_inside (h : (~~~sm).extractLsb' lo len = 0#len) :
    (clearThenSet sm v x).extractLsb' lo len = v.extractLsb' lo len := by
  rw [clearThenSet, setBits, BitVec.extractLsb'_or, clearBits_extract_inside x h, BitVec.zero_or]

/-- A run of bits that neither mask meets stays. -/
theorem clearThenSet_extract_outside (h : (~~~sm).extractLsb' lo len = BitVec.allOnes len)
    (hv : v.extractLsb' lo len = 0#len) : (clearThenSet sm v x).extractLsb' lo len = x.extractLsb' lo len := by
  rw [clearThenSet, setBits, BitVec.extractLsb'_or, clearBits_extract_outside x h, hv, BitVec.or_zero]

end

end Sys2Proof

namespace Sys2Proof.Machine

/-! ## The common part of the rules (R70) -/

/-- A command of format N that mutates the buffer as a raw operation does has the word of its selectors, the outcome of the raw
operation in every state, and every effect of that mutation. -/
theorem namedRule_of_mutate {act : Action} {seg : Segment} {i raw : Instr} {cw : CmdWord} {P : Buffer → Buffer → Prop}
    (hi : namedInstr act seg = some i) (hcw : formatN act seg = cw) (hraw : raw.wf = true) (hm : i.mutate = raw.mutate)
    (hP : ∀ b, P b (raw.mutate b)) : NamedRule i cw raw P :=
  ⟨hcw ▸ decode_formatN hi, exec_eq_of_mutate_eq (wf_of_namedInstr hi) hraw hm,
    effect_of_mutate (wf_of_namedInstr hi) (hm ▸ hP)⟩

section
variable {i : Instr} {cw : CmdWord} {bi : BitVec 2} {P : Buffer → Buffer → Prop}

/-- The stop of a segment is STOPF with the segment's row of `DESC`. -/
theorem namedRule_stop (seg : Segment) (hi : namedInstr .stop seg = some i) (hcw : formatN .stop seg = cw)
    (hbi : ByteIndex.ofBits bi = some (descriptor seg).bi)
    (hP : ∀ b, P b ((Instr.stopf bi (descriptor seg).sm).mutate b)) : NamedRule i cw (.stopf bi (descriptor seg).sm) P :=
  namedRule_of_mutate hi hcw (biLegal_of_ofBits hbi)
    ((mutate_of_namedInstr hi rfl).trans (Instr.mutate.onField_zero_eq_raw hbi)) hP

/-- A direction of a segment is APPLY with the segment's row of `DESC`. -/
theorem namedRule_move (act : Action) (seg : Segment) {v : Byte} (hi : namedInstr act seg = some i)
    (hcw : formatN act seg = cw) (hbi : ByteIndex.ofBits bi = some (descriptor seg).bi)
    (hv : act.value seg = some v) (hP : ∀ b, P b ((Instr.apply bi (descriptor seg).sm v).mutate b)) :
    NamedRule i cw (.apply bi (descriptor seg).sm v) P :=
  namedRule_of_mutate hi hcw (biLegal_of_ofBits hbi)
    ((mutate_of_namedInstr hi hv).trans (Instr.mutate.onField_eq_raw hbi v)) hP

end

/-! ## The rules of each segment -/

/-- Settles O35: HAND_STOP clears bits 1:0 of byte 0, HAND_OPEN puts value A there and HAND_CLOSE value B; bits 7:2 lie outside
the masks. -/
theorem handRules : Obligations.HandRules :=
  ⟨namedRule_stop .hand rfl rfl rfl fun b =>
      ⟨rfl, clearBits_extract_inside b.b0 rfl, clearBits_extract_outside b.b0 rfl⟩,
    namedRule_move .valueA .hand rfl rfl rfl rfl fun b =>
      ⟨rfl, clearThenSet_extract_inside b.b0 rfl, clearThenSet_extract_outside b.b0 rfl rfl⟩,
    namedRule_move .valueB .hand rfl rfl rfl rfl fun b =>
      ⟨rfl, clearThenSet_extract_inside b.b0 rfl, clearThenSet_extract_outside b.b0 rfl rfl⟩⟩

/-- Settles O36: the wrist's commands write bits 3:2 of byte 0. -/
theorem wristRules : Obligations.WristRules :=
  ⟨namedRule_stop .wrist rfl rfl rfl fun b => ⟨rfl, clearBits_extract_inside b.b0 rfl⟩,
    namedRule_move .valueA .wrist rfl rfl rfl rfl fun b => ⟨rfl, clearThenSet_extract_inside b.b0 rfl⟩,
    namedRule_move .valueB .wrist rfl rfl rfl rfl fun b => ⟨rfl, clearThenSet_extract_inside b.b0 rfl⟩⟩

/-- Settles O37: the elbow's commands write bits 5:4 of byte 0. -/
theorem elbowRules : Obligations.ElbowRules :=
  ⟨namedRule_stop .elbow rfl rfl rfl fun b => ⟨rfl, clearBits_extract_inside b.b0 rfl⟩,
    namedRule_move .valueA .elbow rfl rfl rfl rfl fun b => ⟨rfl, clearThenSet_extract_inside b.b0 rfl⟩,
    namedRule_move .valueB .elbow rfl rfl rfl rfl fun b => ⟨rfl, clearThenSet_extract_inside b.b0 rfl⟩⟩

/-- Settles O38: the shoulder's commands write bits 7:6 of byte 0; its value A is `0x80`, its value B `0x40`. -/
theorem shoulderRules : Obligations.ShoulderRules :=
  ⟨namedRule_stop .shoulder rfl rfl rfl fun b => ⟨rfl, clearBits_extract_inside b.b0 rfl⟩,
    namedRule_move .valueA .shoulder rfl rfl rfl rfl fun b => ⟨rfl, clearThenSet_extract_inside b.b0 rfl⟩,
    namedRule_move .valueB .shoulder rfl rfl rfl rfl fun b => ⟨rfl, clearThenSet_extract_inside b.b0 rfl⟩⟩

/-- Settles O39: the base's commands write bits 1:0 of byte 1; the unallocated bits 7:2 lie outside the stop mask. -/
theorem baseRules : Obligations.BaseRules :=
  ⟨namedRule_stop .base rfl rfl rfl fun b =>
      ⟨rfl, clearBits_extract_inside b.b1 rfl, clearBits_extract_outside b.b1 rfl⟩,
    namedRule_move .valueA .base rfl rfl rfl rfl fun b => ⟨rfl, clearThenSet_extract_inside b.b1 rfl⟩,
    namedRule_move .valueB .base rfl rfl rfl rfl fun b => ⟨rfl, clearThenSet_extract_inside b.b1 rfl⟩⟩

end Sys2Proof.Machine

end

/-! PROOFS. The LED family (spec 42_led_commands.md): the rules of LED_ON and LED_OFF (R88, R89). -/

section

namespace Sys2Proof

/-- A byte is its lowest bit and the run of the seven above it. -/
theorem byte_eq_of_extract {x y : Byte} (hbit : x.extractLsb' 0 1 = y.extractLsb' 0 1)
    (hrest : x.extractLsb' 1 7 = y.extractLsb' 1 7) : x = y := by
  rw [← BitVec.extractLsb'_append_extractLsb' (w := 7) (len := 1) (x := x), hbit, hrest,
    BitVec.extractLsb'_append_extractLsb' (w := 7) (len := 1)]

end Sys2Proof

namespace Sys2Proof.Machine

/-- Settles O40: LED_ON is value A of the LED's field and LED_OFF its stop, on bit 0 of byte 2. Bits 7:1 lie outside the masks, so
a bit 0 that already has its value leaves the whole byte as it was. -/
theorem ledRules : Obligations.LedRules :=
  ⟨namedRule_move .valueA .led rfl rfl rfl rfl fun b =>
      have hbit := clearThenSet_extract_inside b.b2 rfl
      have hrest := clearThenSet_extract_outside b.b2 rfl rfl
      ⟨rfl, hbit, hrest, fun hon => congrArg (Buffer.mk b.b0 b.b1) (byte_eq_of_extract (hbit.trans hon.symm) hrest)⟩,
    namedRule_stop .led rfl rfl rfl fun b =>
      have hbit := clearBits_extract_inside b.b2 rfl
      have hrest := clearBits_extract_outside b.b2 rfl
      ⟨rfl, hbit, hrest, fun hoff => congrArg (Buffer.mk b.b0 b.b1) (byte_eq_of_extract (hbit.trans hoff.symm) hrest)⟩⟩

end Sys2Proof.Machine

end

/-! PROOFS. The exceptions family (spec 60_exceptions.md): the causes of IllegalCommand (R94) and what it leaves (R93), the write
kept on TransportError (R95), the block stuck on a silent transport (R98). -/

section

namespace Sys2Proof

/-! ## The causes of an illegal word, format by format (R94) -/

/-- R94 (b), (c), (d), (f): format R accepts a word that passes each of its checks, and no other. -/
theorem decodeRaw_error_iff {admitRaw : Bool} {cw : CmdWord} {unused : Byte} {i : Instr} :
    (∃ e, decodeRaw admitRaw cw unused i = .error e) ↔
      z2Field cw ≠ 0#2 ∨ unused ≠ 0#8 ∨ biField cw = 3#2 ∨ admitRaw = false := by
  refine ⟨fun ⟨e, he⟩ => ?_, fun h => decodeRaw_error i (by tauto)⟩
  by_contra hpass
  simp only [not_or, not_not] at hpass
  obtain ⟨hz2, hunused, hbi, hadmit⟩ := hpass
  simp [decodeRaw, hbi, hz2, hunused, hadmit] at he

/-- R94 (b): format Z has reserved bits only. -/
theorem decodeStopAll_error_iff {cw : CmdWord} : (∃ e, decodeStopAll cw = .error e) ↔ z20Field cw ≠ 0#20 := by
  unfold decodeStopAll
  split_ifs with hz <;> simp [hz]

/-- R94 (e): selectors that are the bits of a segment and an action are those of a command but for value B of the LED. -/
theorem namedInstr_bits_none (act : Action) (seg : Segment) :
    namedInstr act seg = none ↔ act.bits = 2#2 ∧ seg.bits = 5#3 := by
  rw [namedInstr_none]
  cases act <;> cases seg <;> decide

/-- R94 (b), (e): format N accepts a word with zero reserved bits whose selectors name a command, and no other. -/
theorem decodeNamed_error_iff {cw : CmdWord} :
    (∃ e, decodeNamed cw = .error e) ↔
      z15Field cw ≠ 0#15 ∨ segField cw = 6#3 ∨ segField cw = 7#3 ∨ actField cw = 3#2 ∨
        (actField cw = 2#2 ∧ segField cw = 5#3) := by
  unfold decodeNamed
  split_ifs with hz
  · simp [hz]
  cases hseg : Segment.ofBits (segField cw) with
  | none => simpa [hz] using ((Segment.ofBits_none _).mp hseg).imp_right .inl
  | some seg =>
    have hreserved := mt (Segment.ofBits_none (segField cw)).mpr (by simp [hseg])
    cases hact : Action.ofBits (actField cw) with
    | none => simp [(Action.ofBits_none _).mp hact]
    | some act =>
      have hact3 := mt (Action.ofBits_none (actField cw)).mpr (by simp [hact])
      have hled := namedInstr_bits_none act seg
      rw [← Segment.bits_of_ofBits hseg, ← Action.bits_of_ofBits hact] at hled
      cases hi : namedInstr act seg with
      | none => simp [hi, hled.mp hi]
      | some i =>
        have hnot := mt hled.mpr (by simp [hi])
        simp only [hi, reduceCtorEq, exists_false, false_iff]
        tauto

/-- R94 (a): an `OP` that selects no format. -/
theorem decode_of_op_reserved (admitRaw : Bool) {cw : CmdWord}
    (h : opField cw ∈ [0#4, 6#4, 7#4, 9#4, 10#4, 11#4, 12#4, 13#4, 14#4, 15#4]) :
    decode admitRaw cw = .error .reservedOpcode := by
  simp only [List.mem_cons, List.not_mem_nil, or_false] at h
  rcases h with h | h | h | h | h | h | h | h | h | h <;> (rw [decode, h]; rfl)

/-- Every `OP` is reserved or selects a format (30_encoding.md R56). -/
theorem op_cases (op : BitVec 4) :
    op ∈ [0#4, 6#4, 7#4, 9#4, 10#4, 11#4, 12#4, 13#4, 14#4, 15#4] ∨
      op = 1#4 ∨ op = 2#4 ∨ op = 3#4 ∨ op = 4#4 ∨ op = 5#4 ∨ op = 8#4 := by
  revert op; decide

end Sys2Proof

namespace Sys2Proof.Machine

/-! ## IllegalCommand (R93, R94) -/

/-- Settles O4: `OP` is reserved or selects a format, and each format refuses exactly what its checks refuse; decode alone
decides, so a word it rejects is refused in every ready state. -/
theorem illegalWordsAreTheListedCauses : Obligations.IllegalWordsAreTheListedCauses := by
  refine ⟨fun admitRaw cw => ?_, fun _ _ ⟨_, he⟩ => refusedWord_of_decode_error he⟩
  rcases op_cases (cw.extractLsb' 20 4) with hop | hop | hop | hop | hop | hop | hop
  · exact iff_of_true ⟨_, decode_of_op_reserved admitRaw hop⟩ (.inl hop)
  · rw [decode_of_op_clrf admitRaw hop, decodeRaw_error_iff, biField, z2Field, vmField]
    simp [hop]
  · rw [decode_of_op_setf admitRaw hop, decodeRaw_error_iff, biField, z2Field, smField]
    simp [hop]
  · rw [decode_of_op_apply admitRaw hop, decodeRaw_error_iff, biField, z2Field]
    simp [hop]
  · rw [decode_of_op_stopf admitRaw hop, decodeRaw_error_iff, biField, z2Field, vmField]
    simp [hop]
  · rw [decode_of_op_stopAll admitRaw hop, decodeStopAll_error_iff, z20Field]
    simp [hop]
  · rw [decode_of_op_named admitRaw hop, decodeNamed_error_iff, z15Field, segField, actField]
    simp [hop]

/-- Settles O8: the refused word leaves the state as it was with the word taken, but for the response and its record. -/
theorem illegalWordChangesNothing : Obligations.IllegalWordChangesNothing := by
  intro s cw rest e hr hh he
  obtain ⟨-, hport⟩ := refusedWord_of_decode_error he
  obtain ⟨t, ht, rfl⟩ := hport s rest hr hh
  have hready : s.cmdReady = true := congrArg not hr.2
  exact ⟨_, ht, rfl, rfl, rfl, rfl, rfl, rfl, rfl, rfl, rfl, rfl, rfl, hready, hr.2⟩

/-! ## TransportError (R95) -/

/-- A command with an answer at hand ends with its mutation in the buffer, whatever the answer. -/
theorem exec_answered {i : Instr} {s : State} (hw : i.wf = true) (hr : Ready s) (a : Answer) (rest : List TxSample) :
    ∃ t, exec i { s with answers := .answered a :: rest } = .next t ∧ t.buf = i.mutate s.buf ∧
      Completed { s with answers := .answered a :: rest } t a :=
  (effect_mutate hw { s with answers := .answered a :: rest } hr).1 a rfl

/-- Settles O22: the mutation does not see the answer, so `err` leaves the buffer that `ok` leaves. -/
theorem transportErrorKeepsTheWrite : Obligations.TransportErrorKeepsTheWrite := by
  intro i s rest hw hr
  obtain ⟨t, ht, hbuf, herr⟩ := exec_answered hw hr .err rest
  obtain ⟨t', ht', hbuf', -⟩ := exec_answered hw hr .ok rest
  have hb : t.buf = t'.buf := hbuf.trans hbuf'.symm
  obtain ⟨k, hdev, -⟩ := herr.devErr rfl
  exact ⟨t, t', ht, ht', hb, congrArg Buffer.pack hb, congrArg (Option.map Status.code) herr.rsp, herr.log, k, hdev⟩

/-! ## A transport that never answers (R98) -/

/-- A free value is an answer, so only a listed sample is silence (log 2). -/
theorem State.txSample_silent_iff {s : State} : s.txSample = .silent ↔ ∃ rest, s.answers = .silent :: rest := by
  unfold State.txSample
  split <;> simp [*]

/-- Silence is for ever: taking a sample of it changes nothing. -/
theorem State.takeSample_of_silent {s : State} (h : s.txSample = .silent) : s.takeSample = s := by
  obtain ⟨rest, ha⟩ := State.txSample_silent_iff.mp h
  obtain ⟨⟩ := s
  subst ha; rfl

/-- Unless the host forces a reset, a busy block waits for the transport. -/
theorem busyEvent_of_no_resetNow {s : State} (h : ∀ rest, s.host ≠ .resetNow :: rest) : busyEvent s = .next s.await := by
  unfold busyEvent
  split
  next rest hh => exact absurd hh (h rest)
  all_goals rfl

/-- A busy block with a silent transport and no forced reset steps to itself. -/
theorem stepWith_stuck {admitRaw : Bool} {s : State} (hf : s.inFlight = true) (hs : s.txSample = .silent)
    (hh : ∀ rest, s.host ≠ .resetNow :: rest) : stepWith admitRaw s = .next s := by
  rw [stepWith_busy hf, busyEvent_of_no_resetNow hh, State.await_unanswered (.inr hs), State.takeSample_of_silent hs]

/-- A state that steps to itself does so for any number of steps. -/
theorem runWith_of_stuck {admitRaw : Bool} {s : State} (h : stepWith admitRaw s = .next s) (k : Nat) :
    runWith admitRaw k s = .next s := by
  induction k with
  | zero => rfl
  | succ k ih => rw [runWith, h]; exact ih

/-- With a silent transport a command's frame is presented and stays unanswered. -/
theorem exec_silent {i : Instr} {s : State} (hw : i.wf = true) (hr : Ready s) (hs : s.txSample = .silent) :
    ∃ t, exec i s = .next t ∧ Waiting s t ∧ t.txSample = .silent := by
  have hlisted := State.txSample_silent_iff.mp hs
  have hs' : (s.withBuf (i.mutate s.buf)).txSample = .silent := hs
  have hpresent : exec i s = .next (s.withBuf (i.mutate s.buf)).takeSample.present := by
    rw [exec_eq_command i hw, command_ready hr, State.send_unanswered (.inr hs')]
  refine ⟨_, hpresent, waiting_present s _, State.txSample_silent_iff.mpr ?_⟩
  rw [State.takeSample_of_silent hs']; exact hlisted

/-- Settles O13: the presented frame leaves a busy block whose transport is still silent and whose host's acts wait, a state that
steps to itself. -/
theorem silentTransportBlocksForever : Obligations.SilentTransportBlocksForever := by
  intro i s hw hr hs hh
  obtain ⟨t, ht, hwait, hsilent⟩ := exec_silent hw hr hs
  have hstuck : stepWith true t = .next t := stepWith_stuck hwait.busy hsilent (by rwa [hwait.host])
  exact ⟨t, ht, hwait, congrArg not hwait.busy, runWith_of_stuck hstuck⟩

end Sys2Proof.Machine

end

/-! PROOFS. The reset and hazards family (spec 70_reset_and_hazards.md): reset (R109), the source's four properties (R123), the
frame law of whole runs (R124). -/

section

namespace Sys2Proof

/-! ## What a word decodes to has an encoding (30_encoding.md R57 to R59) -/

theorem decodeRaw_ok {admitRaw : Bool} {cw : CmdWord} {unused : Byte} {i j : Instr}
    (h : decodeRaw admitRaw cw unused i = .ok j) : biField cw ≠ 3#2 ∧ j = i := by
  unfold decodeRaw at h
  split_ifs at h with hadmit hz2 hbi hunused
  exact ⟨hbi, (Except.ok.inj h).symm⟩

theorem decodeStopAll_ok {cw : CmdWord} {i : Instr} (h : decodeStopAll cw = .ok i) : i = .stopAll := by
  unfold decodeStopAll at h
  split_ifs at h with hz
  exact (Except.ok.inj h).symm

theorem decodeNamed_ok {cw : CmdWord} {i : Instr} (h : decodeNamed cw = .ok i) :
    ∃ act seg, namedInstr act seg = some i := by
  unfold decodeNamed at h
  split_ifs at h with hz
  cases hseg : Segment.ofBits (segField cw) with
  | none => simp [hseg] at h
  | some seg =>
    cases hact : Action.ofBits (actField cw) with
    | none => simp [hseg, hact] at h
    | some act =>
      cases hi : namedInstr act seg with
      | none => simp [hseg, hact, hi] at h
      | some j =>
        simp only [hseg, hact, hi, Except.ok.injEq] at h
        exact ⟨act, seg, hi.trans (congrArg some h)⟩

theorem wf_of_decode {admitRaw : Bool} {cw : CmdWord} {i : Instr} (h : decode admitRaw cw = .ok i) : i.wf = true := by
  rcases op_cases (opField cw) with hop | hop | hop | hop | hop | hop | hop
  · exact absurd ((decode_of_op_reserved admitRaw hop).symm.trans h) nofun
  · obtain ⟨hbi, rfl⟩ := decodeRaw_ok ((decode_of_op_clrf admitRaw hop).symm.trans h)
    exact biLegal_of_ne_three hbi
  · obtain ⟨hbi, rfl⟩ := decodeRaw_ok ((decode_of_op_setf admitRaw hop).symm.trans h)
    exact biLegal_of_ne_three hbi
  · obtain ⟨hbi, rfl⟩ := decodeRaw_ok ((decode_of_op_apply admitRaw hop).symm.trans h)
    exact biLegal_of_ne_three hbi
  · obtain ⟨hbi, rfl⟩ := decodeRaw_ok ((decode_of_op_stopf admitRaw hop).symm.trans h)
    exact biLegal_of_ne_three hbi
  · rw [decodeStopAll_ok ((decode_of_op_stopAll admitRaw hop).symm.trans h)]; rfl
  · obtain ⟨act, seg, hi⟩ := decodeNamed_ok ((decode_of_op_named admitRaw hop).symm.trans h)
    exact wf_of_namedInstr hi

/-! ## The legal words of a run (R124) -/

/-- The words of a program that are commands, not IllegalCommand. -/
def legalWords (ws : List CmdWord) : List CmdWord := ws.filter fun w => (decode true w).isOk

theorem legalWords_append (ws ws' : List CmdWord) : legalWords (ws ++ ws') = legalWords ws ++ legalWords ws' :=
  List.filter_append ..

theorem legalWords_of_ok {w : CmdWord} {i : Instr} (h : decode true w = .ok i) : legalWords [w] = [w] :=
  List.filter_cons_of_pos (by rw [h]; rfl)

theorem legalWords_of_error {w : CmdWord} {e : Illegal} (h : decode true w = .error e) : legalWords [w] = [] :=
  List.filter_cons_of_neg (by rw [h]; exact Bool.false_ne_true)

/-! ## The writes behind the source's properties (R123) -/

/-- The value a named command writes is one of its field's values. -/
theorem value_of_namedInstr {act : Action} {seg : Segment} {i : Instr} (hi : namedInstr act seg = some i) :
    ∃ v, act.value seg = some v ∧ isFieldValue seg v = true := by
  cases act <;> cases seg <;> cases hi <;> exact ⟨_, rfl, by decide⟩

/-- APPLY's write is idempotent, whatever byte index and masks it is given (00_scope.md R8). -/
theorem Instr.mutate.raw_clearThenSet_idem (bi : BitVec 2) (sm vm : Byte) (b : Buffer) :
    Instr.mutate.raw bi (clearThenSet sm vm) (Instr.mutate.raw bi (clearThenSet sm vm) b) =
      Instr.mutate.raw bi (clearThenSet sm vm) b := by
  cases hj : ByteIndex.ofBits bi with
  | none => simp only [Instr.mutate.raw, hj]
  | some j =>
    simp only [Instr.mutate.raw_of_ofBits hj, Buffer.read_write_same, Buffer.write_write_same, clearThenSet_idem]

end Sys2Proof

namespace Sys2Proof.Machine

/-! ## The frame law of whole runs (R124) -/

/-- An answered frame leaves the buffer as the last frame sent. -/
theorem Completed.frameLaw {s t : State} {a : Answer} (h : Completed s t a) : FrameLaw t := by
  intro _
  rw [h.log, List.getLast?_concat]

/-- Every frame takes one sample of the transport. -/
@[simp] theorem State.send_answers (s : State) : s.send.answers = dropSample s.answers := by
  rcases s.txSample_cases with ⟨a, h⟩ | h
  · rw [State.send_answered h]; rfl
  · rw [State.send_unanswered h]; rfl

/-- A command adds no sample to the transport's list, so a transport that answers goes on answering. -/
theorem exec_keeps_answering {i : Instr} {s t : State} (h : exec i s = .next t) (ha : Answering s) : Answering t := by
  obtain ⟨-, ⟨-, rfl⟩ | ⟨-, -, rfl⟩ | ⟨-, -, rfl⟩⟩ := exec_cases h
  · exact ha
  · exact ha
  · intro x hx
    rw [State.send_answers] at hx
    exact ha x (mem_of_mem_dropSample hx)

/-- The invariant of a run whose frames are all answered: the block is ready for the next word, with the frame law. -/
structure BetweenWords (s : State) : Prop where
  ready : Ready s
  answering : Answering s
  frameLaw : FrameLaw s

/-- What a run over these words of the host leaves: the log longer by an entry for each legal word, a status for each word, the
words gone from the host's list. -/
structure AfterWords (ws : List CmdWord) (s t : State) : Prop where
  log : s.log <+: t.log
  logLength : t.log.length = s.log.length + (legalWords ws).length
  statuses : t.statuses.length = s.statuses.length + ws.length
  host : s.host = ws.map .command ++ t.host

theorem AfterWords.refl (s : State) : AfterWords [] s s where
  log := ⟨[], List.append_nil _⟩
  logLength := rfl
  statuses := rfl
  host := rfl

theorem AfterWords.trans {ws ws' : List CmdWord} {s t u : State} (h : AfterWords ws s t) (h' : AfterWords ws' t u) :
    AfterWords (ws ++ ws') s u where
  log := h.log.trans h'.log
  logLength := by rw [h'.logLength, h.logLength, legalWords_append, List.length_append, Nat.add_assoc]
  statuses := by rw [h'.statuses, h.statuses, List.length_append, Nat.add_assoc]
  host := by rw [h.host, h'.host, List.map_append, List.append_assoc]

section
variable {w : CmdWord} {s : State} {rest : List HostAct}

/-- A legal word is one answered frame. -/
theorem stepWith_legal {i : Instr} (hd : decode true w = .ok i) (hs : BetweenWords s) (hh : s.host = .command w :: rest) :
    ∃ t, stepWith true s = .next t ∧ BetweenWords t ∧ AfterWords [w] s t := by
  have hready : Ready { s with host := rest } := hs.ready
  have hanswering : Answering { s with host := rest } := hs.answering
  obtain ⟨a, hsample⟩ := hanswering.txSample
  obtain ⟨t, ht, -, hdone⟩ := (effect_mutate (wf_of_decode hd) _ hready).1 a hsample
  have hstep : stepWith true s = .next t := by
    rw [stepWith_command hs.ready.2 hh, runWord, hd]; exact ht
  have ht' : BetweenWords t :=
    ⟨⟨hdone.attached.trans hs.ready.1, hdone.done⟩, exec_keeps_answering ht hanswering, hdone.frameLaw⟩
  refine ⟨t, hstep, ht', ?_⟩
  exact {
    log := ⟨_, hdone.log.symm⟩
    logLength := by rw [hdone.log, legalWords_of_ok hd, List.length_append]; rfl
    statuses := by rw [hdone.statuses, List.length_append]; rfl
    host := by rw [hh, hdone.host]; rfl }

/-- An illegal word is a status and nothing else (60_exceptions.md R93). -/
theorem stepWith_illegal {e : Illegal} (hd : decode true w = .error e) (hs : BetweenWords s)
    (hh : s.host = .command w :: rest) : ∃ t, stepWith true s = .next t ∧ BetweenWords t ∧ AfterWords [w] s t := by
  obtain ⟨-, hport⟩ := refusedWord_of_decode_error hd
  obtain ⟨t, ht, rfl⟩ := hport s rest hs.ready hh
  refine ⟨_, ht, ⟨hs.ready, hs.answering, hs.frameLaw⟩, ?_⟩
  exact {
    log := ⟨[], List.append_nil _⟩
    logLength := by rw [legalWords_of_error hd]; rfl
    statuses := List.length_append
    host := hh }

theorem stepWith_word (hs : BetweenWords s) (hh : s.host = .command w :: rest) :
    ∃ t, stepWith true s = .next t ∧ BetweenWords t ∧ AfterWords [w] s t := by
  cases hd : decode true w with
  | ok i => exact stepWith_legal hd hs hh
  | error e => exact stepWith_illegal hd hs hh

end

theorem runWith_succ_of_step {admitRaw : Bool} {s t : State} (h : stepWith admitRaw s = .next t) (k : Nat) :
    runWith admitRaw (k + 1) s = runWith admitRaw k t := by
  rw [runWith, h]

/-- A run over words of the host keeps the invariant, and the log of every state on the way begins the last one. -/
theorem runWith_words : ∀ (k : Nat) (ws : List CmdWord) (s : State), k ≤ ws.length → BetweenWords s →
    s.host = ws.map .command → ∃ t, runWith true k s = .next t ∧ BetweenWords t ∧ AfterWords (ws.take k) s t ∧
      ∀ j ≤ k, ∃ u, runWith true j s = .next u ∧ u.log <+: t.log
  | 0, _, s, _, hs, _ =>
    ⟨s, rfl, hs, AfterWords.refl s, fun j hj => ⟨s, by rw [Nat.le_zero.mp hj]; rfl, ⟨[], List.append_nil _⟩⟩⟩
  | k + 1, w :: ws, s, hk, hs, hh => by
    obtain ⟨s', hstep, hs', hword⟩ := stepWith_word hs hh
    have hh' : s'.host = ws.map .command := (List.cons.inj (hword.host.symm.trans hh)).2
    obtain ⟨t, hrun, ht, hwords, hway⟩ := runWith_words k ws s' (Nat.le_of_succ_le_succ hk) hs' hh'
    have hall : AfterWords ((w :: ws).take (k + 1)) s t := hword.trans hwords
    refine ⟨t, (runWith_succ_of_step hstep k).trans hrun, ht, hall, fun j hj => ?_⟩
    cases j with
    | zero => exact ⟨s, rfl, hall.log⟩
    | succ j =>
      obtain ⟨u, hu, hlog⟩ := hway j (Nat.le_of_succ_le_succ hj)
      exact ⟨u, (runWith_succ_of_step hstep j).trans hu, hlog⟩

theorem frameLaw_of_log_nil {s : State} (hlog : s.log = []) (hbuf : s.buf = Config.resetValue) : FrameLaw s := by
  intro _
  rw [hlog]; exact hbuf

/-- Settles O53: with the reset buffer and an empty log the frame law holds, and every word, legal or not, keeps it and only
appends to the log; induction over the steps of the run. -/
theorem frameLawOfRuns : Obligations.FrameLawOfRuns := by
  intro ws s hr ha hlog hbuf hh k hk
  obtain ⟨t, hrun, ht, hwords, hway⟩ := runWith_words k ws s hk ⟨hr, ha, frameLaw_of_log_nil hlog hbuf⟩ hh
  have hlength : t.log.length = (legalWords (ws.take k)).length := by
    rw [hwords.logLength, hlog, List.length_nil, Nat.zero_add]
  have hstatuses : t.statuses.length = s.statuses.length + k := by
    rw [hwords.statuses, List.length_take_of_le hk]
  exact ⟨t, hrun, ht.ready, ht.frameLaw, hlength, hstatuses, hway⟩

/-! ## The four properties of the source (R123) -/

/-- R123 (a): run or not accepted, a named command leaves every other field as it was. -/
theorem exec_named_keeps_other_field {act : Action} {p q : Segment} {i : Instr} {s t : State}
    (hi : namedInstr act p = some i) (hpq : p ≠ q) (ht : exec i s = .next t) : fieldBits t.buf q = fieldBits s.buf q := by
  obtain ⟨v, hv, hval⟩ := value_of_namedInstr hi
  obtain ⟨-, hb⟩ | ⟨-, -, hb⟩ | ⟨-, -, hb⟩ := exec_buf ht
  · rw [hb]
  · rw [hb]
  · rw [hb, mutate_of_namedInstr hi hv, fieldBits_onField_other hval hpq]

/-- A command with an idempotent mutation leaves, run twice, the buffer of the first time. -/
theorem exec_twice_buf {i : Instr} {s t u : State} (hidem : ∀ b, i.mutate (i.mutate b) = i.mutate b)
    (ht : exec i s = .next t) (hu : exec i t = .next u) : u.buf = t.buf := by
  obtain ⟨-, hb⟩ | ⟨-, -, hb⟩ | ⟨hready, hw, hb⟩ := exec_buf hu
  · exact hb
  · exact hb
  · obtain ⟨-, ⟨hbusy, rfl⟩ | ⟨-, hill, -⟩ | ⟨-, -, rfl⟩⟩ := exec_cases ht
    · exact absurd (hready.symm.trans hbusy) Bool.false_ne_true
    · exact absurd (hill.symm.trans hw) Bool.false_ne_true
    · rw [hb, State.send_buf]; exact hidem s.buf

/-- R123 (c): direction B of a two-bit field leaves its value in the field, whatever was there. -/
theorem exec_valueB {p : Segment} {vb : Byte} {i : Instr} {s : State} (hvb : (descriptor p).vb = some vb)
    (hi : namedInstr .valueB p = some i) (hr : Ready s) : ∃ t, exec i s = .next t ∧ fieldBits t.buf p = vb := by
  obtain ⟨t, ht, hb⟩ := exec_ready_buf (wf_of_namedInstr hi) hr
  have hval : isFieldValue p vb = true := by simp [isFieldValue, hvb]
  exact ⟨t, ht, by rw [hb, mutate_of_namedInstr hi hvb, fieldBits_onField_same hval]⟩

/-- Settles O44: fields are disjoint, APPLY's write is idempotent, a direction's write leaves exactly its value in the field, and
STOPALL's mutation is the zero buffer. -/
theorem sourceProperties : Obligations.SourceProperties := by
  refine ⟨fun act seg seg' i s t hi hne _ ht => exec_named_keeps_other_field hi hne ht,
    fun bi sm vm s t u => exec_twice_buf (Instr.mutate.raw_clearThenSet_idem bi sm vm),
    fun seg vb i s hvb hi hr _ => ?_, fun s hr => exec_ready_buf rfl hr⟩
  obtain ⟨t, ht, hfield⟩ := exec_valueB hvb hi hr
  obtain ⟨-, hdisjoint⟩ := descriptor_two_bit seg vb hvb
  exact ⟨t, ht, hfield, (BitVec.and_comm _ _).trans hdisjoint⟩

/-! ## Reset between commands (R109) -/

/-- With no command in progress either reset act of the host resets the block. -/
theorem stepWith_reset {admitRaw : Bool} {s : State} {rest : List HostAct} (hf : s.inFlight = false)
    (hh : s.host = .reset :: rest ∨ s.host = .resetNow :: rest) : stepWith admitRaw s = .next s.dropAct.resetBlock := by
  rw [stepWith_ready hf]
  rcases hh with hh | hh <;> simp only [readyEvent, hh]

/-- Settles O10: the step is the reset of the block, with the act taken and the surroundings as they were. -/
theorem resetClearsTheBlock : Obligations.ResetClearsTheBlock := by
  intro s rest hf hh
  have htaken : s.dropAct.resetBlock.host = rest := by
    rcases hh with hh | hh <;> simp [hh]
  have hzero : Config.resetValue.pack = 0x000000#24 := by decide
  exact ⟨_, stepWith_reset hf hh, rfl, hzero, rfl, rfl, rfl, rfl, htaken, rfl⟩

end Sys2Proof.Machine

end

/-! PROOFS. The encoding family, whole (spec 30_encoding.md): the decoder accepts exactly the words of the encoder (R49 to R59,
R61), the table rows (R55), the number of legal words (V2). -/

section

namespace Sys2Proof

/-! ## Decode undoes encode (R49 to R51, R55) -/

theorem decode_encode {i : Instr} (hw : i.wf = true) : decode true (encode i) = .ok i := by
  cases i with
  | clrf bi sm => exact decode_encode_clrf (bne_iff_ne.mp hw) sm
  | setf bi vm => exact decode_encode_setf (bne_iff_ne.mp hw) vm
  | apply bi sm vm => exact decode_encode_apply (bne_iff_ne.mp hw) sm vm
  | stopf bi sm => exact decode_encode_stopf (bne_iff_ne.mp hw) sm
  | _ => rfl

/-! ## Encode undoes decode (R57 to R59, R61) -/

/-- The raw operations: the commands that `ADMIT_RAW` governs (R61). -/
def Instr.isRaw : Instr → Bool
  | .clrf _ _ => true
  | .setf _ _ => true
  | .apply _ _ _ => true
  | .stopf _ _ => true
  | _ => false

theorem isRaw_of_namedInstr {act : Action} {seg : Segment} {i : Instr} (hi : namedInstr act seg = some i) :
    i.isRaw = false := by
  cases act <;> cases seg <;> cases hi <;> rfl

theorem encode_of_namedInstr {act : Action} {seg : Segment} {i : Instr} (hi : namedInstr act seg = some i) :
    encode i = formatN act seg := by
  cases act <;> cases seg <;> cases hi <;> rfl

/-- A word that format R accepts has passed every check of R59. -/
theorem decodeRaw_ok_checks {admitRaw : Bool} {cw : CmdWord} {unused : Byte} {i j : Instr}
    (h : decodeRaw admitRaw cw unused i = .ok j) : admitRaw = true ∧ z2Field cw = 0#2 ∧ unused = 0#8 ∧ i = j := by
  unfold decodeRaw at h
  split_ifs at h with hadmit hz2 hbi hunused
  exact ⟨Bool.eq_true_of_not_eq_false hadmit, not_not.mp hz2, not_not.mp hunused, Except.ok.inj h⟩

theorem decodeStopAll_ok_reserved {cw : CmdWord} {i : Instr} (h : decodeStopAll cw = .ok i) : z20Field cw = 0#20 := by
  by_contra hz
  obtain ⟨e, he⟩ := decodeStopAll_error_iff.mpr hz
  exact absurd (h.symm.trans he) nofun

/-- A word that format N accepts has zero reserved bits and the selectors of a command. -/
theorem decodeNamed_ok_fields {cw : CmdWord} {i : Instr} (h : decodeNamed cw = .ok i) :
    ∃ act seg, namedInstr act seg = some i ∧ z15Field cw = 0#15 ∧ actField cw = act.bits ∧ segField cw = seg.bits := by
  unfold decodeNamed at h
  split_ifs at h with hz
  cases hseg : Segment.ofBits (segField cw) with
  | none => simp [hseg] at h
  | some seg =>
    cases hact : Action.ofBits (actField cw) with
    | none => simp [hseg, hact] at h
    | some act =>
      cases hi : namedInstr act seg with
      | none => simp [hseg, hact, hi] at h
      | some j =>
        simp only [hseg, hact, hi, Except.ok.injEq] at h
        exact ⟨act, seg, hi.trans (congrArg some h), not_not.mp hz, Action.bits_of_ofBits hact, Segment.bits_of_ofBits hseg⟩

/-- A legal word is its command's own, and a raw operation comes from it only where `ADMIT_RAW` holds. -/
theorem encode_of_decode {admitRaw : Bool} {cw : CmdWord} {i : Instr} (h : decode admitRaw cw = .ok i) :
    encode i = cw ∧ (i.isRaw = true → admitRaw = true) := by
  rcases op_cases (opField cw) with hop | hop | hop | hop | hop | hop | hop
  · exact absurd ((decode_of_op_reserved admitRaw hop).symm.trans h) nofun
  · obtain ⟨hadmit, hz2, hvm, rfl⟩ := decodeRaw_ok_checks ((decode_of_op_clrf admitRaw hop).symm.trans h)
    exact ⟨by rw [encode, ← hop, ← hvm, formatR_fields hz2], fun _ => hadmit⟩
  · obtain ⟨hadmit, hz2, hsm, rfl⟩ := decodeRaw_ok_checks ((decode_of_op_setf admitRaw hop).symm.trans h)
    exact ⟨by rw [encode, ← hop, ← hsm, formatR_fields hz2], fun _ => hadmit⟩
  · obtain ⟨hadmit, hz2, -, rfl⟩ := decodeRaw_ok_checks ((decode_of_op_apply admitRaw hop).symm.trans h)
    exact ⟨by rw [encode, ← hop, formatR_fields hz2], fun _ => hadmit⟩
  · obtain ⟨hadmit, hz2, hvm, rfl⟩ := decodeRaw_ok_checks ((decode_of_op_stopf admitRaw hop).symm.trans h)
    exact ⟨by rw [encode, ← hop, ← hvm, formatR_fields hz2], fun _ => hadmit⟩
  · have hd := (decode_of_op_stopAll admitRaw hop).symm.trans h
    obtain rfl := decodeStopAll_ok hd
    exact ⟨(formatZ_fields hop (decodeStopAll_ok_reserved hd)).symm, nofun⟩
  · obtain ⟨act, seg, hi, hz, hact, hseg⟩ := decodeNamed_ok_fields ((decode_of_op_named admitRaw hop).symm.trans h)
    exact ⟨(encode_of_namedInstr hi).trans (formatN_fields hop hz hact hseg),
      fun hraw => absurd ((isRaw_of_namedInstr hi).symm.trans hraw) Bool.false_ne_true⟩

/-- `ADMIT_RAW` changes nothing for a word whose `OP` is not that of a raw operation (R61). -/
theorem decode_false_of_op_not_raw {cw : CmdWord} (hop : opField cw ∉ [1#4, 2#4, 3#4, 4#4]) :
    decode false cw = decode true cw := by
  rcases op_cases (opField cw) with h | h | h | h | h | h | h
  · rw [decode_of_op_reserved false h, decode_of_op_reserved true h]
  · exact absurd (by simp [h]) hop
  · exact absurd (by simp [h]) hop
  · exact absurd (by simp [h]) hop
  · exact absurd (by simp [h]) hop
  · rw [decode_of_op_stopAll false h, decode_of_op_stopAll true h]
  · rw [decode_of_op_named false h, decode_of_op_named true h]

/-- The decoder accepts exactly the words of the well-formed commands, the raw ones where `ADMIT_RAW` holds. -/
theorem decode_eq_ok_iff {admitRaw : Bool} {cw : CmdWord} {i : Instr} :
    decode admitRaw cw = .ok i ↔ i.wf = true ∧ (i.isRaw = true → admitRaw = true) ∧ encode i = cw := by
  constructor
  · intro h
    obtain ⟨hcw, hraw⟩ := encode_of_decode h
    exact ⟨wf_of_decode h, hraw, hcw⟩
  · rintro ⟨hw, hraw, rfl⟩
    cases admitRaw with
    | true => exact decode_encode hw
    | false =>
      cases i with
      | clrf bi sm => exact absurd (hraw rfl) Bool.false_ne_true
      | setf bi vm => exact absurd (hraw rfl) Bool.false_ne_true
      | apply bi sm vm => exact absurd (hraw rfl) Bool.false_ne_true
      | stopf bi sm => exact absurd (hraw rfl) Bool.false_ne_true
      | _ => rfl

/-- Every command's word lies in its row of the table: the model's per-command lemmas, put together. -/
theorem encode_and_mask (i : Instr) : encode i &&& i.row.mask = i.row.pattern := by
  cases i with
  | clrf bi sm => exact Laws.TableWord.clrf bi sm
  | setf bi vm => exact Laws.TableWord.setf bi vm
  | apply bi sm vm => exact Laws.TableWord.apply bi sm vm
  | stopf bi sm => exact Laws.TableWord.stopf bi sm
  | _ => rfl

/-- Settles O1: format by format, the fields of the word are the operands of the command. -/
theorem decodeOfEncode : Obligations.DecodeOfEncode := fun _ => decode_encode

/-- Settles O2: the checks of R59 leave a legal word no bit that its command's word does not have. -/
theorem encodeOfDecode : Obligations.EncodeOfDecode := by
  intro admitRaw cw i h
  obtain ⟨hw, -, rfl⟩ := decode_eq_ok_iff.mp h
  exact ⟨rfl, hw, encode_and_mask i⟩

/-- Settles O3: each of the words is the word of its command. -/
theorem specWordsDecode : Obligations.SpecWordsDecode :=
  ⟨decode_encode (i := .clrf 0 0x03) rfl, decode_encode (i := .clrf 2 0xFE) rfl, decode_encode (i := .setf 1 0x80) rfl,
    decode_encode (i := .apply 1 0x03 0x02) rfl, decode_encode (i := .stopf 0 0xC0) rfl, decode_encode (i := .stopAll) rfl,
    decode_encode (i := .handClose) rfl, decode_encode (i := .ledOn) rfl⟩

/-! ## The number of legal words (95_test_vectors.md V2) -/

/-- The byte indexes of a raw operation that name a location (20_memory.md R36). -/
def legalIndexes : List (BitVec 2) := [0#2, 1#2, 2#2]

theorem mem_legalIndexes (bi : BitVec 2) : bi ∈ legalIndexes ↔ biLegal bi = true := by
  revert bi; decide

/-- Every mask over a byte (R53). -/
def allMasks : List Byte := (List.finRange 256).map BitVec.ofFin

theorem mem_allMasks (m : Byte) : m ∈ allMasks := List.mem_map.mpr ⟨m.toFin, List.mem_finRange _, rfl⟩

theorem nodup_allMasks : allMasks.Nodup := (List.nodup_finRange 256).map fun _ _ h => congrArg BitVec.toFin h

theorem length_allMasks : allMasks.length = 256 := by rw [allMasks, List.length_map, List.length_finRange]

/-- A byte index and a mask: the operands of CLRF, SETF and STOPF. -/
def oneMaskOperands : List (BitVec 2 × Byte) := legalIndexes ×ˢ allMasks

theorem nodup_oneMaskOperands : oneMaskOperands.Nodup := List.Nodup.product (by decide) nodup_allMasks

theorem length_oneMaskOperands : oneMaskOperands.length = 768 := by
  rw [oneMaskOperands, List.length_product, length_allMasks]; rfl

theorem mem_oneMaskOperands (p : BitVec 2 × Byte) : p ∈ oneMaskOperands ↔ biLegal p.1 = true := by
  rw [oneMaskOperands, List.mem_product, mem_legalIndexes]
  exact and_iff_left (mem_allMasks p.2)

/-- The well-formed raw operations (R55). -/
def rawInstrs : List Instr :=
  oneMaskOperands.map (fun p => .clrf p.1 p.2) ++ (oneMaskOperands.map (fun p => .setf p.1 p.2) ++
    (oneMaskOperands.map (fun p => .stopf p.1 p.2) ++
      (oneMaskOperands ×ˢ allMasks).map (fun p => .apply p.1.1 p.1.2 p.2)))

/-- The commands with no operands: STOPALL and the named commands (R55). -/
def fixedInstrs : List Instr :=
  [.stopAll, .handStop, .handOpen, .handClose, .wristStop, .wristUp, .wristDown, .elbowStop, .elbowUp, .elbowDown,
   .shoulderStop, .shoulderUp, .shoulderDown, .baseStop, .baseCw, .baseCcw, .ledOff, .ledOn]

theorem wf_of_not_isRaw {i : Instr} (h : i.isRaw = false) : i.wf = true := by
  cases i with
  | clrf bi sm => exact absurd h nofun
  | setf bi vm => exact absurd h nofun
  | apply bi sm vm => exact absurd h nofun
  | stopf bi sm => exact absurd h nofun
  | _ => rfl

theorem mem_fixedInstrs (i : Instr) : i ∈ fixedInstrs ↔ i.isRaw = false := by
  cases i <;> simp [fixedInstrs, Instr.isRaw]

theorem mem_rawInstrs (i : Instr) : i ∈ rawInstrs ↔ i.isRaw = true ∧ i.wf = true := by
  cases i <;> simp [rawInstrs, Instr.isRaw, Instr.wf, mem_oneMaskOperands, mem_allMasks]

/-- With `ADMIT_RAW` a word may name any well-formed command. -/
theorem mem_commands_iff_wf (i : Instr) :
    i ∈ rawInstrs ++ fixedInstrs ↔ i.wf = true ∧ (i.isRaw = true → true = true) := by
  rw [List.mem_append, mem_rawInstrs, mem_fixedInstrs]
  exact ⟨fun h => ⟨h.elim And.right wf_of_not_isRaw, fun _ => rfl⟩,
    fun ⟨hw, _⟩ => (Bool.eq_false_or_eq_true i.isRaw).imp_left fun hraw => ⟨hraw, hw⟩⟩

/-- Without it, one that is no raw operation. -/
theorem mem_fixedInstrs_iff_not_raw (i : Instr) :
    i ∈ fixedInstrs ↔ i.wf = true ∧ (i.isRaw = true → false = true) := by
  rw [mem_fixedInstrs]
  exact ⟨fun h => ⟨wf_of_not_isRaw h, fun hraw => h.symm.trans hraw⟩,
    fun ⟨_, h⟩ => Bool.eq_false_iff.mpr fun hraw => nomatch h hraw⟩

theorem nodup_rawInstrs : rawInstrs.Nodup := by
  have hclrf : (oneMaskOperands.map fun p => Instr.clrf p.1 p.2).Nodup :=
    nodup_oneMaskOperands.map fun _ _ h => Prod.ext (Instr.clrf.inj h).1 (Instr.clrf.inj h).2
  have hsetf : (oneMaskOperands.map fun p => Instr.setf p.1 p.2).Nodup :=
    nodup_oneMaskOperands.map fun _ _ h => Prod.ext (Instr.setf.inj h).1 (Instr.setf.inj h).2
  have hstopf : (oneMaskOperands.map fun p => Instr.stopf p.1 p.2).Nodup :=
    nodup_oneMaskOperands.map fun _ _ h => Prod.ext (Instr.stopf.inj h).1 (Instr.stopf.inj h).2
  have happly : ((oneMaskOperands ×ˢ allMasks).map fun p => Instr.apply p.1.1 p.1.2 p.2).Nodup :=
    (nodup_oneMaskOperands.product nodup_allMasks).map fun _ _ h => by
      obtain ⟨hbi, hsm, hvm⟩ := Instr.apply.inj h
      exact Prod.ext (Prod.ext hbi hsm) hvm
  refine hclrf.append (hsetf.append (hstopf.append happly ?_) ?_) ?_ <;>
    simp only [List.disjoint_left, List.mem_append, List.mem_map, not_or] <;> rintro _ ⟨p, -, rfl⟩ <;> simp

theorem length_rawInstrs : rawInstrs.length = 198912 := by
  simp only [rawInstrs, List.length_append, List.length_map, List.length_product, length_oneMaskOperands, length_allMasks]

/-- The words of a list of commands, when it holds exactly the commands that `ADMIT_RAW` lets a word name, are the legal words. -/
theorem legalWords_of_commands {admitRaw : Bool} {is : List Instr} (hn : is.Nodup)
    (hmem : ∀ i, i ∈ is ↔ i.wf = true ∧ (i.isRaw = true → admitRaw = true)) :
    ∃ l : List CmdWord, l.Nodup ∧ l.length = is.length ∧ ∀ cw, cw ∈ l ↔ ∃ i, decode admitRaw cw = .ok i := by
  refine ⟨is.map encode, hn.map_on fun i hi j hj h => ?_, List.length_map _, fun cw => ?_⟩
  · by_contra hne
    exact encode_ne_of_decode (decode_encode ((hmem i).mp hi).1) (decode_encode ((hmem j).mp hj).1) hne h
  · simp only [List.mem_map, hmem, decode_eq_ok_iff, and_assoc]

/-- Settles O5: the legal words are the words of the well-formed commands, each its own. Three operations have a byte index and a
mask, APPLY has a byte index and two masks, 18 commands have no operand. -/
theorem legalWordCount : Obligations.LegalWordCount := by
  have hfixed : fixedInstrs.Nodup := by decide
  have hdisjoint : rawInstrs.Disjoint fixedInstrs := fun i hi hj =>
    absurd (((mem_rawInstrs i).mp hi).1.symm.trans ((mem_fixedInstrs i).mp hj)) nofun
  constructor
  · obtain ⟨l, hl, hlen, hmem⟩ := legalWords_of_commands (nodup_rawInstrs.append hfixed hdisjoint) mem_commands_iff_wf
    exact ⟨l, hl, by rw [hlen, List.length_append, length_rawInstrs]; rfl, hmem⟩
  · exact legalWords_of_commands hfixed mem_fixedInstrs_iff_not_raw

end Sys2Proof

end

/-! PROOFS. The port and the step (spec 00_scope.md R10, 10_state.md R21, R24, 60_exceptions.md R93 to R101): what the block does with
a command that is accepted, not accepted or refused, with a wait, with a reset, with nothing. -/

section

namespace Sys2Proof.Machine

/-! ## Every command and every word is one `accept` -/

theorem accept_busy {run : State → State} {s : State} (ha : s.attached = true) (hf : s.inFlight = true) :
    accept run s = .next s := by
  simp [accept, ha, hf]

theorem accept_detached {run : State → State} {s : State} (ha : s.attached = false) :
    accept run s = .refused .noTransport := by
  simp [accept, ha]

theorem accept_attached (run : State → State) {s : State} (ha : s.attached = true) : ∃ t, accept run s = .next t := by
  cases hf : s.inFlight with
  | true => exact ⟨_, accept_busy ha hf⟩
  | false => exact ⟨_, accept_ready ⟨ha, hf⟩⟩

/-- The part of a command that the port decides is the same for all of them. -/
theorem exec_eq_accept (i : Instr) : ∃ run, ∀ s, exec i s = accept run s := by
  cases hw : i.wf with
  | true => exact ⟨_, exec_eq_command i hw⟩
  | false => exact ⟨_, exec_eq_illegal i hw⟩

theorem runWord_ok {admitRaw : Bool} {cw : CmdWord} {i : Instr} (hi : decode admitRaw cw = .ok i) (s : State) :
    runWord admitRaw cw s = exec i s := by
  simp only [runWord, hi]

/-- A word is a command for the port, legal or not (log 15). -/
theorem runWord_eq_accept (admitRaw : Bool) (cw : CmdWord) : ∃ run, ∀ s, runWord admitRaw cw s = accept run s := by
  cases hd : decode admitRaw cw with
  | ok i =>
    obtain ⟨run, hrun⟩ := exec_eq_accept i
    exact ⟨run, fun s => (runWord_ok hd s).trans (hrun s)⟩
  | error e => exact ⟨_, runWord_error hd⟩

theorem exec_busy (i : Instr) {s : State} (ha : s.attached = true) (hf : s.inFlight = true) : exec i s = .next s := by
  obtain ⟨run, hrun⟩ := exec_eq_accept i
  rw [hrun, accept_busy ha hf]

theorem exec_detached (i : Instr) {s : State} (ha : s.attached = false) : exec i s = .refused .noTransport := by
  obtain ⟨run, hrun⟩ := exec_eq_accept i
  rw [hrun, accept_detached ha]

theorem exec_attached (i : Instr) {s : State} (ha : s.attached = true) : ∃ t, exec i s = .next t := by
  obtain ⟨run, hrun⟩ := exec_eq_accept i
  rw [hrun]; exact accept_attached run ha

/-! ## A block with nothing to do, and a block that waits -/

theorem stepWith_idle {admitRaw : Bool} {s : State} (hf : s.inFlight = false) (hh : s.host = []) :
    stepWith admitRaw s = .next s.idle := by
  rw [stepWith_ready hf]
  simp only [readyEvent, hh]

/-- During a command every event is a wait, unless the host forces a reset. -/
theorem stepWith_await {admitRaw : Bool} {s : State} (hf : s.inFlight = true) (hh : ∀ rest, s.host ≠ .resetNow :: rest) :
    stepWith admitRaw s = .next s.await := by
  rw [stepWith_busy hf, busyEvent_of_no_resetNow hh]

theorem stepWith_resetNow_busy {admitRaw : Bool} {s : State} {rest : List HostAct} (hf : s.inFlight = true)
    (hh : s.host = .resetNow :: rest) : stepWith admitRaw s = .refused .resetDuringCommand := by
  rw [stepWith_busy hf]
  simp only [busyEvent, hh]

theorem eq_await_of_step_busy {admitRaw : Bool} {s t : State} (hf : s.inFlight = true) (ht : stepWith admitRaw s = .next t) :
    (∀ rest, s.host ≠ .resetNow :: rest) ∧ t = s.await := by
  have hh : ∀ rest, s.host ≠ .resetNow :: rest := fun rest hh =>
    absurd (ht.symm.trans (stepWith_resetNow_busy hf hh)) nofun
  exact ⟨hh, Host.Outcome.next.inj (ht.symm.trans (stepWith_await hf hh))⟩

@[simp] theorem State.await_buf (s : State) : s.await.buf = s.buf := by
  rcases s.txSample_cases with ⟨a, h⟩ | h
  · rw [State.await_answered h]; rfl
  · rw [State.await_unanswered h]; rfl

@[simp] theorem State.await_host (s : State) : s.await.host = s.host := by
  rcases s.txSample_cases with ⟨a, h⟩ | h
  · rw [State.await_answered h]; rfl
  · rw [State.await_unanswered h]; rfl

/-- A quiet cycle is a listed sample, and taking it draws no free value (log 2). -/
theorem State.takeSample_of_quiet {s : State} (h : s.txSample = .quiet) :
    s.takeSample = { s with answers := s.answers.tail } := by
  unfold State.txSample at h
  split at h
  next => exact absurd h nofun
  next x rest ha => subst h; simp [State.takeSample, ha, dropSample]

/-! ## What the port does with a word -/

/-- Settles O7: the word at the port of a ready block is run, and a word that decodes is run as its command. -/
theorem stepRunsTheDecodedCommand : Obligations.StepRunsTheDecodedCommand := fun s _ _ _ hf hh hd =>
  (step_eq s).trans ((stepWith_command hf hh).trans (runWord_ok hd _))

/-- A word of any raw operation is refused with `BI = 3`, and where `ADMIT_RAW` does not hold (60_exceptions.md R94 (d), (f)). -/
theorem refusedWord_of_raw_op {admitRaw : Bool} {cw : CmdWord} (hop : opField cw ∈ [1#4, 2#4, 3#4, 4#4])
    (h : biField cw = 3#2 ∨ admitRaw = false) : RefusedWord admitRaw cw := by
  have hcause (unused : Byte) : biField cw = 3#2 ∨ z2Field cw ≠ 0#2 ∨ unused ≠ 0#8 ∨ admitRaw = false :=
    h.imp_right fun hadmit => .inr (.inr hadmit)
  simp only [List.mem_cons, List.not_mem_nil, or_false] at hop
  rcases hop with hop | hop | hop | hop
  · exact refusedWord_of_decodeRaw (decode_of_op_clrf admitRaw hop) (hcause _)
  · exact refusedWord_of_decodeRaw (decode_of_op_setf admitRaw hop) (hcause _)
  · exact refusedWord_of_decodeRaw (decode_of_op_apply admitRaw hop) (hcause _)
  · exact refusedWord_of_decodeRaw (decode_of_op_stopf admitRaw hop) (hcause _)

/-- An ill-formed command raises IllegalCommand and does nothing else. -/
theorem exec_illegalled {i : Instr} {s : State} (hw : i.wf = false) (hr : Ready s) :
    ∃ t, exec i s = .next t ∧ Illegalled s t :=
  ⟨_, (exec_eq_illegal i hw s).trans (illegalCommand_ready hr), rfl⟩

/-- Settles O9: each raw operation with index 3 is ill-formed, each of their words fails the check on `BI`, and the index of a
segment is that of a location. -/
theorem byteIndexThreeIsIllegal : Obligations.ByteIndexThreeIsIllegal := by
  refine ⟨fun sm vm s hr i hi => exec_illegalled ?_ hr, fun admitRaw cw hop hbi => refusedWord_of_raw_op hop (.inl hbi), ?_⟩
  · simp only [List.mem_cons, List.not_mem_nil, or_false] at hi
    rcases hi with rfl | rfl | rfl | rfl <;> rfl
  · intro seg; cases seg <;> decide

/-! ## The step, stop by stop -/

/-- Settles O12: an idle step only ends the response. -/
theorem idleUntilACommand : Obligations.IdleUntilACommand := fun _ hf hh => stepWith_idle hf hh

/-- Settles O14: the step is a wait, which an answer ends, which a quiet cycle shortens by a sample and silence leaves as it is. -/
theorem lateAnswerEndsTheCommand : Obligations.LateAnswerEndsTheCommand := by
  intro s hf hh
  have hstep : step s = .next s.await := stepWith_await hf hh
  refine ⟨fun a ha => ?_, fun hq => ?_, fun hs => ?_⟩
  · rw [hstep, State.await_answered ha]
    exact ⟨_, rfl, rfl, completed_finish s s.buf a⟩
  · rw [hstep, State.await_unanswered (.inl hq), State.takeSample_of_quiet hq]
  · rw [hstep, State.await_unanswered (.inr hs), State.takeSample_of_silent hs]

/-- Settles O15: the step of a busy block is a wait, which touches neither the buffer nor the host's acts; a busy port accepts no
command. -/
theorem oneCommandAtATime : Obligations.OneCommandAtATime := by
  refine fun s hf => ⟨fun t ht => ?_, fun i ha => exec_busy i ha hf⟩
  obtain ⟨-, rfl⟩ := eq_await_of_step_busy hf ht
  exact ⟨s.await_host, s.await_buf⟩

/-- Settles O16: the forced reset is the one act a busy block does not let wait. -/
theorem resetDuringACommandIsRefused : Obligations.ResetDuringACommandIsRefused := fun _ _ hf hh =>
  stepWith_resetNow_busy hf hh

/-- Settles O17: the port refuses every command, and every word is a command to it. -/
theorem noTransportNoMeaning : Obligations.NoTransportNoMeaning := by
  refine fun s ha => ⟨fun i => exec_detached i ha, fun cw rest hf hh => ?_⟩
  obtain ⟨run, hrun⟩ := runWord_eq_accept true cw
  rw [step_eq, stepWith_command hf hh, hrun]; exact accept_detached ha

/-- The block stops at the two refusals and nowhere else, whatever `ADMIT_RAW` is. -/
theorem stepWith_stops (admitRaw : Bool) (s : State) : (∃ t, stepWith admitRaw s = .next t) ∨
    (stepWith admitRaw s = .refused .noTransport ∧ s.attached = false ∧ ∃ cw rest, s.host = .command cw :: rest) ∨
    (stepWith admitRaw s = .refused .resetDuringCommand ∧ s.inFlight = true ∧ ∃ rest, s.host = .resetNow :: rest) := by
  cases hf : s.inFlight with
  | true =>
    by_cases hreset : ∃ rest, s.host = .resetNow :: rest
    · obtain ⟨rest, hh⟩ := hreset
      exact .inr (.inr ⟨stepWith_resetNow_busy hf hh, rfl, rest, hh⟩)
    · exact .inl ⟨_, stepWith_await hf (not_exists.mp hreset)⟩
  | false =>
    cases hh : s.host with
    | nil => exact .inl ⟨_, stepWith_idle hf hh⟩
    | cons act rest =>
      cases act with
      | reset => exact .inl ⟨_, stepWith_reset hf (.inl hh)⟩
      | resetNow => exact .inl ⟨_, stepWith_reset hf (.inr hh)⟩
      | command cw =>
        obtain ⟨run, hrun⟩ := runWord_eq_accept admitRaw cw
        rw [stepWith_command hf hh, hrun]
        rcases Bool.eq_false_or_eq_true s.attached with ha | ha
        · exact .inl (accept_attached run ha)
        · exact .inr (.inl ⟨accept_detached ha, ha, cw, rest, rfl⟩)

/-- Settles O18: a busy block waits or refuses the forced reset; a ready one takes the host's act, and only the port can refuse
it. -/
theorem stepStopsInTwoWaysOnly : Obligations.StepStopsInTwoWaysOnly := stepWith_stops true

/-! ## Reset -/

/-- Settles O11: the reset buffer is all zero, so its fields are stopped and INV holds; nothing is presented and nothing taken. -/
theorem resetValues : Obligations.ResetValues :=
  ⟨rfl, fieldState_zero, Buffer.inv_zero, rfl, rfl, rfl, rfl, rfl, rfl, rfl, nofun⟩

/-- Settles O59: the step is the reset of the block, which restarts the statuses and writes none of the surroundings. -/
theorem resetLeavesTheSurroundings : Obligations.ResetLeavesTheSurroundings := fun _ _ hf hh =>
  ⟨_, stepWith_reset hf hh, rfl, rfl, rfl, rfl⟩

end Sys2Proof.Machine

end

/-! PROOFS. The records a command extends (spec 10_state.md R26, R27, 60_exceptions.md R91, 93 U1): the log, the statuses, the device
image and its recorded fault; the laws between them (70_reset_and_hazards.md R124). -/

section

namespace Sys2Proof

/-! ## Statuses and invalid fields (R91, 10_state.md R16) -/

theorem Answer.status_ne_illegal (a : Answer) : a.status ≠ .illegalCommand := by cases a <;> decide

theorem Machine.Status.code_ne_three (st : Machine.Status) : st.code ≠ 3#2 := by cases st <;> decide

theorem Segment.mem_all (p : Segment) : p ∈ Segment.all := by cases p <;> decide

theorem Buffer.hasInvalidField_iff (b : Buffer) : b.hasInvalidField = true ↔ ∃ p, fieldState b p = .invalid := by
  simp [Buffer.hasInvalidField, Segment.mem_all]

end Sys2Proof

namespace Sys2Proof.Machine

/-! ## A frame is answered, or it waits -/

/-- A command's frame completes it or leaves it in progress. -/
theorem send_cases (s : State) (b : Buffer) :
    (∃ a, Completed s (s.withBuf b).send a) ∨ Waiting s (s.withBuf b).send := by
  rcases (s.withBuf b).txSample_cases with ⟨a, h⟩ | h
  · rw [State.send_answered h]; exact .inl ⟨a, completed_finish s b a⟩
  · rw [State.send_unanswered h]; exact .inr (waiting_present s b)

/-- A wait completes the command or only takes a sample of the transport. -/
theorem await_cases (s : State) : (∃ a, Completed s s.await a) ∨ s.await = s.takeSample := by
  rcases s.txSample_cases with ⟨a, h⟩ | h
  · rw [State.await_answered h]; exact .inl ⟨a, completed_finish s s.buf a⟩
  · exact .inr (State.await_unanswered h)

section
variable {i : Instr} {s t : State}

theorem exec_eq_finish {a : Answer} (hw : i.wf = true) (hr : Ready s) (ha : s.txSample = .answered a) :
    exec i s = .next ((s.withBuf (i.mutate s.buf)).takeSample.finish a) := by
  rw [exec_eq_command i hw, command_ready hr, State.send_answered ((State.txSample_withBuf _ s).trans ha)]

theorem exec_eq_present (hw : i.wf = true) (hr : Ready s) (hu : s.txSample = .quiet ∨ s.txSample = .silent) :
    exec i s = .next (s.withBuf (i.mutate s.buf)).takeSample.present := by
  rw [exec_eq_command i hw, command_ready hr, State.send_unanswered (by rwa [State.txSample_withBuf])]

theorem exec_completed {a : Answer} (hw : i.wf = true) (hr : Ready s) (ha : s.txSample = .answered a)
    (ht : exec i s = .next t) : t.buf = i.mutate s.buf ∧ Completed s t a := by
  obtain rfl := Host.Outcome.next.inj ((exec_eq_finish hw hr ha).symm.trans ht)
  exact ⟨rfl, completed_finish s _ a⟩

end

/-! ## The frame of a command beside the buffer -/

theorem RestKept.refl (s : State) : RestKept s s where
  host := rfl
  attached := rfl
  log := .inl rfl
  statuses := .inl rfl
  armFault h := h

theorem RestKept.raiseIllegal (s : State) : RestKept s s.raiseIllegal where
  host := rfl
  attached := rfl
  log := .inl rfl
  statuses := .inr ⟨_, rfl⟩
  armFault h := h

/-- A recorded fault of the device image is never cleared (log 6). -/
theorem State.send_armFault_of_armFault {s : State} (h : s.armFault = true) : s.send.armFault = true := by
  rcases s.txSample_cases with ⟨a, ha⟩ | hu
  · rw [State.send_answered ha]; simp [h]
  · rw [State.send_unanswered hu]; exact h

theorem RestKept.send (s : State) (b : Buffer) : RestKept s (s.withBuf b).send where
  host := State.send_host _
  attached := State.send_attached _
  log := (send_cases s b).elim (fun ⟨a, h⟩ => .inr ⟨a, h.log⟩) fun h => .inl h.log
  statuses := (send_cases s b).elim (fun ⟨_, h⟩ => .inr ⟨_, h.statuses⟩) fun h => .inl h.statuses
  armFault h := State.send_armFault_of_armFault h

/-- Settles O20: a command is not accepted, raises IllegalCommand, or sends one frame. -/
theorem commandsKeepTheRest : Obligations.CommandsKeepTheRest := by
  intro i s t ht
  obtain ⟨-, ⟨-, rfl⟩ | ⟨-, -, rfl⟩ | ⟨-, -, rfl⟩⟩ := exec_cases ht
  · exact RestKept.refl _
  · exact RestKept.raiseIllegal s
  · exact RestKept.send s _

/-! ## The status of a command (R91) -/

theorem State.rspStatus_of_rsp {s : State} {st : Status} (h : s.rsp = some st) : s.rspStatus = some st.code :=
  congrArg (Option.map Status.code) h

theorem State.rspStatus_ne_three (s : State) : s.rspStatus ≠ some 3#2 := by
  intro h
  obtain ⟨st, -, hst⟩ := Option.map_eq_some_iff.mp h
  exact st.code_ne_three hst

/-- Settles O21: the answer to the frame fixes status and log entry; a word that decode rejects ends with IllegalCommand, and no
status has code 3. -/
theorem statusCodes : Obligations.StatusCodes := by
  refine ⟨fun i s t hw hr ht => ⟨fun hok => ?_, fun herr => ?_⟩, fun cw e s t rest hr hh he ht => ?_, State.rspStatus_ne_three⟩
  · obtain ⟨-, hdone⟩ := exec_completed hw hr hok ht
    exact ⟨State.rspStatus_of_rsp hdone.rsp, hdone.log⟩
  · obtain ⟨-, hdone⟩ := exec_completed hw hr herr ht
    exact ⟨State.rspStatus_of_rsp hdone.rsp, hdone.log⟩
  · obtain ⟨-, hport⟩ := refusedWord_of_decode_error he
    obtain ⟨u, hu, hill⟩ := hport s rest hr hh
    obtain rfl : t = u := Host.Outcome.next.inj (ht.symm.trans hu)
    rw [hill]; exact ⟨rfl, rfl, rfl⟩

/-! ## The laws of the records (R124, R91, R27) -/

/-- The three laws together. -/
structure RecordLaws (s : State) : Prop where
  frame : FrameLaw s
  status : StatusLaw s
  image : ImageLaw s

/-- An answered frame adds its entry to the log and the entry's status to the statuses. -/
theorem Completed.statusLaw {s t : State} {a : Answer} (h : Completed s t a) (hs : StatusLaw s) : StatusLaw t := by
  unfold StatusLaw at hs ⊢
  rw [h.statuses, h.log, List.filter_append, List.map_append, hs]
  simp [Answer.status_ne_illegal]

/-- The last frame is the one just answered, and after `ok` the arm holds it. -/
theorem Completed.imageLaw {s t : State} {a : Answer} (h : Completed s t a) : ImageLaw t := by
  intro _ e he hok
  rw [h.log, List.getLast?_concat, Option.some.injEq] at he
  subst he; exact h.devOk hok

theorem Completed.recordLaws {s t : State} {a : Answer} (h : Completed s t a) (hs : StatusLaw s) : RecordLaws t :=
  ⟨h.frameLaw, h.statusLaw hs, h.imageLaw⟩

/-- During a command only the status law speaks. -/
theorem recordLaws_of_busy {s : State} (hf : s.inFlight = true) (hs : StatusLaw s) : RecordLaws s where
  frame h := absurd (hf.symm.trans h) nofun
  status := hs
  image h := absurd (hf.symm.trans h) nofun

theorem Waiting.recordLaws {s t : State} (h : Waiting s t) (hs : StatusLaw s) : RecordLaws t :=
  recordLaws_of_busy h.busy (by unfold StatusLaw; rw [h.statuses, h.log]; exact hs)

/-- IllegalCommand is recorded among the statuses, where the law leaves it out. -/
theorem RecordLaws.raiseIllegal {s : State} (h : RecordLaws s) : RecordLaws s.raiseIllegal where
  frame := h.frame
  status := by
    have hs := h.status
    unfold StatusLaw at hs ⊢
    rw [State.raiseIllegal_statuses, State.raiseIllegal_log, List.filter_append, hs]
    simp
  image := h.image

theorem RecordLaws.dropAct {s : State} (h : RecordLaws s) : RecordLaws s.dropAct := ⟨h.frame, h.status, h.image⟩

theorem RecordLaws.idle {s : State} (h : RecordLaws s) : RecordLaws s.idle := ⟨h.frame, h.status, h.image⟩

theorem recordLaws_of_log_nil {s : State} (hlog : s.log = []) (hst : s.statuses = []) (hbuf : s.buf = Config.resetValue) :
    RecordLaws s where
  frame := frameLaw_of_log_nil hlog hbuf
  status := by unfold StatusLaw; rw [hlog, hst]; rfl
  image _ e he := by rw [hlog] at he; exact absurd he nofun

theorem RecordLaws.await {s : State} (hf : s.inFlight = true) (h : RecordLaws s) : RecordLaws s.await := by
  obtain ⟨a, hdone⟩ | hwait := await_cases s
  · exact hdone.recordLaws h.status
  · rw [hwait]; exact recordLaws_of_busy hf h.status

theorem RecordLaws.exec {i : Instr} {s t : State} (h : RecordLaws s) (ht : exec i s = .next t) : RecordLaws t := by
  obtain ⟨-, ⟨-, rfl⟩ | ⟨-, -, rfl⟩ | ⟨-, -, rfl⟩⟩ := exec_cases ht
  · exact h
  · exact h.raiseIllegal
  · obtain ⟨a, hdone⟩ | hwait := send_cases s (i.mutate s.buf)
    · exact hdone.recordLaws h.status
    · exact hwait.recordLaws h.status

theorem RecordLaws.illegalCommand {s t : State} (h : RecordLaws s) (ht : illegalCommand s = .next t) : RecordLaws t := by
  obtain ⟨-, ⟨-, rfl⟩ | ⟨-, rfl⟩⟩ := accept_cases ht
  · exact h
  · exact h.raiseIllegal

theorem RecordLaws.stepWith {admitRaw : Bool} {s t : State} (h : RecordLaws s) (ht : stepWith admitRaw s = .next t) :
    RecordLaws t := by
  obtain ⟨hf, rfl⟩ | ⟨-, -, rfl⟩ | ⟨-, -, rfl⟩ | ⟨-, cw, rest, -, ⟨e, -, hill⟩ | ⟨i, -, hex⟩⟩ := stepWith_cases ht
  · exact h.await hf
  · exact h.idle
  · exact recordLaws_of_log_nil rfl rfl rfl
  · exact h.dropAct.illegalCommand hill
  · exact h.dropAct.exec hex

/-- Settles O50: an answered frame establishes the frame and the image law and extends the status law by one entry and its status;
during a command only the status law speaks; a reset restarts the records. -/
theorem recordLawsKeptByEveryStep : Obligations.RecordLawsKeptByEveryStep := by
  intro admitRaw s t hframe hstatus himage ht
  obtain ⟨hframe', hstatus', himage'⟩ := RecordLaws.stepWith ⟨hframe, hstatus, himage⟩ ht
  exact ⟨hframe', hstatus', himage'⟩

/-- Settles O51: the records are empty after reset. -/
theorem recordLawsAtReset : Obligations.RecordLawsAtReset := by
  obtain ⟨hframe, hstatus, himage⟩ := recordLaws_of_log_nil (s := State.reset) rfl rfl rfl
  exact ⟨hframe, hstatus, himage⟩

/-! ## The log of one step (R26) -/

/-- A step that restarts nothing leaves the log alone, or adds the buffer with the answer that is the response. -/
def LogStep (s t : State) : Prop :=
  (t.log = s.log ∧ (t.rsp = none ∨ t.rsp = some .illegalCommand ∨ t.rsp = s.rsp)) ∨
    ∃ a, t.log = s.log ++ [⟨t.buf, a⟩] ∧ t.rsp = some a.status ∧ t.inFlight = false

theorem Completed.logStep {s t : State} {a : Answer} (h : Completed s t a) : LogStep s t := .inr ⟨a, h.log, h.rsp, h.done⟩

theorem Waiting.logStep {s t : State} (h : Waiting s t) : LogStep s t := .inl ⟨h.log, .inl h.rsp⟩

theorem logStep_await (s : State) : LogStep s s.await := by
  obtain ⟨a, hdone⟩ | hwait := await_cases s
  · exact hdone.logStep
  · rw [hwait]; exact .inl ⟨rfl, .inr (.inr rfl)⟩

theorem logStep_exec {i : Instr} {s t : State} (ht : exec i s = .next t) : LogStep s t := by
  obtain ⟨-, ⟨-, rfl⟩ | ⟨-, -, rfl⟩ | ⟨-, -, rfl⟩⟩ := exec_cases ht
  · exact .inl ⟨rfl, .inr (.inr rfl)⟩
  · exact .inl ⟨rfl, .inr (.inl rfl)⟩
  · obtain ⟨a, hdone⟩ | hwait := send_cases s (i.mutate s.buf)
    · exact hdone.logStep
    · exact hwait.logStep

theorem logStep_illegalCommand {s t : State} (ht : illegalCommand s = .next t) : LogStep s t := by
  obtain ⟨-, ⟨-, rfl⟩ | ⟨-, rfl⟩⟩ := accept_cases ht
  · exact .inl ⟨rfl, .inr (.inr rfl)⟩
  · exact .inl ⟨rfl, .inr (.inl rfl)⟩

/-- To take the host's act changes neither log nor response. -/
theorem LogStep.of_dropAct {s t : State} (h : LogStep s.dropAct t) : LogStep s t := h

/-- What every step but a reset does to the log. -/
theorem logStep_or_reset {admitRaw : Bool} {s t : State} (ht : stepWith admitRaw s = .next t) :
    LogStep s t ∨ t = s.dropAct.resetBlock ∧ ∃ rest, s.host = .reset :: rest ∨ s.host = .resetNow :: rest := by
  obtain ⟨-, rfl⟩ | ⟨-, -, rfl⟩ | ⟨-, hh, rfl⟩ | ⟨-, cw, rest, -, ⟨e, -, hill⟩ | ⟨i, -, hex⟩⟩ := stepWith_cases ht
  · exact .inl (logStep_await s)
  · exact .inl (.inl ⟨rfl, .inl rfl⟩)
  · exact .inr ⟨rfl, hh⟩
  · exact .inl (logStep_illegalCommand hill).of_dropAct
  · exact .inl (logStep_exec hex).of_dropAct

/-- Settles O52: a step sends at most one frame, and only a reset restarts the log. -/
theorem oneLogEntryPerStep : Obligations.OneLogEntryPerStep := by
  intro admitRaw s t ht
  obtain (hsame | hentry) | ⟨rfl, hh⟩ := logStep_or_reset ht
  · exact .inl hsame
  · exact .inr (.inl hentry)
  · exact .inr (.inr ⟨rfl, rfl, hh⟩)

/-! ## The device image and its recorded fault (R27, 93 U1) -/

/-- Settles O54: the answer gives the device image; a reset does not write it; at the reset state it is a free value. -/
theorem deviceImageRule : Obligations.DeviceImageRule := by
  refine ⟨fun i s t hw hr ht => ⟨fun hok => ?_, fun herr => ?_⟩, fun s t rest hf hh ht => ?_, nofun⟩
  · have hdev := (exec_completed hw hr hok ht).2.devOk rfl
    exact ⟨hdev, congrArg DevImage.bytes hdev⟩
  · obtain ⟨k, hdev, -⟩ := (exec_completed hw hr herr ht).2.devErr rfl
    exact ⟨k, hdev, congrArg DevImage.bytes hdev⟩
  · obtain rfl := Host.Outcome.next.inj ((stepWith_reset hf hh).symm.trans ht)
    rfl

theorem armFaultBy_iff (a : Answer) (b : Buffer) :
    armFaultBy a b = true ↔ a = .ok ∧ ∃ p, fieldState b p = .invalid := by
  rw [armFaultBy, Bool.and_eq_true, decide_eq_true_eq, Buffer.hasInvalidField_iff]

/-- Settles O55: the end of the frame adds to the record what the answer says of the frame, which is the new buffer. -/
theorem armFaultIsRecordedExactly : Obligations.ArmFaultIsRecordedExactly := by
  intro i s a hw hr ha
  refine ⟨_, exec_eq_finish hw hr ha, ?_⟩
  rw [State.finish_armFault, Bool.or_eq_true, armFaultBy_iff]
  rfl

/-- Settles O56: to present a frame draws a new free value for the image and leaves the record of its fault. -/
theorem unansweredFrameLeavesTheArmUnknown : Obligations.UnansweredFrameLeavesTheArmUnknown := by
  intro i s hw hr hu
  exact ⟨_, _, exec_eq_present hw hr hu, rfl, State.draws_le_takeSample (s.withBuf _), Nat.lt_succ_self _, rfl⟩

/-! ## The device image is no part of the block (R27) -/

/-- The state with any device image and any record of its fault. -/
def State.withArm (d : DevImage) (f : Bool) (s : State) : State := { s with dev := d, armFault := f }

/-- The states agree in everything but the device image and its recorded fault. -/
def SameBlock (s t : State) : Prop := ∃ d f, t = s.withArm d f

theorem SameBlock.eq {s t : State} (h : SameBlock s t) : { t with dev := s.dev, armFault := s.armFault } = s := by
  obtain ⟨d, f, rfl⟩ := h; rfl

section
variable (s : State) (d : DevImage) (f : Bool)

theorem sameBlock_send (b : Buffer) : SameBlock (s.withBuf b).send ((s.withArm d f).withBuf b).send := by
  rcases s.txSample_cases with ⟨a, h⟩ | h
  · have hb : (s.withBuf b).txSample = .answered a := h
    have hd : ((s.withArm d f).withBuf b).txSample = .answered a := h
    rw [State.send_answered hb, State.send_answered hd]; exact ⟨_, _, rfl⟩
  · have hb : (s.withBuf b).txSample = .quiet ∨ (s.withBuf b).txSample = .silent := h
    have hd : ((s.withArm d f).withBuf b).txSample = .quiet ∨ ((s.withArm d f).withBuf b).txSample = .silent := h
    rw [State.send_unanswered hb, State.send_unanswered hd]; exact ⟨_, _, rfl⟩

theorem sameBlock_await : SameBlock s.await (s.withArm d f).await := by
  rcases s.txSample_cases with ⟨a, h⟩ | h
  · have hd : (s.withArm d f).txSample = .answered a := h
    rw [State.await_answered h, State.await_answered hd]; exact ⟨_, _, rfl⟩
  · have hd : (s.withArm d f).txSample = .quiet ∨ (s.withArm d f).txSample = .silent := h
    rw [State.await_unanswered h, State.await_unanswered hd]; exact ⟨_, _, rfl⟩

variable {s}

/-- What the port decides of a command does not look at the device image. -/
theorem sameBlock_accept {run : State → State} {t : State} (ht : accept run s = .next t)
    (hrun : SameBlock (run s) (run (s.withArm d f))) : ∃ t', accept run (s.withArm d f) = .next t' ∧ SameBlock t t' := by
  obtain ⟨ha, ⟨hf, rfl⟩ | ⟨hf, rfl⟩⟩ := accept_cases ht
  · exact ⟨_, accept_busy ha hf, d, f, rfl⟩
  · exact ⟨_, accept_ready ⟨ha, hf⟩, hrun⟩

theorem sameBlock_exec {i : Instr} {t : State} (ht : exec i s = .next t) :
    ∃ t', exec i (s.withArm d f) = .next t' ∧ SameBlock t t' := by
  cases hw : i.wf with
  | true =>
    rw [exec_eq_command i hw] at ht ⊢
    exact sameBlock_accept d f ht (sameBlock_send s d f _)
  | false =>
    rw [exec_eq_illegal i hw] at ht ⊢
    exact sameBlock_accept d f ht ⟨d, f, rfl⟩

theorem sameBlock_runWord {admitRaw : Bool} {cw : CmdWord} {t : State} (ht : runWord admitRaw cw s = .next t) :
    ∃ t', runWord admitRaw cw (s.withArm d f) = .next t' ∧ SameBlock t t' := by
  cases hd : decode admitRaw cw with
  | ok i =>
    rw [runWord_ok hd] at ht ⊢
    exact sameBlock_exec d f ht
  | error e =>
    rw [runWord_error hd] at ht ⊢
    exact sameBlock_accept d f ht ⟨d, f, rfl⟩

theorem sameBlock_stepWith {admitRaw : Bool} {t : State} (ht : stepWith admitRaw s = .next t) :
    ∃ t', stepWith admitRaw (s.withArm d f) = .next t' ∧ SameBlock t t' := by
  cases hf : s.inFlight with
  | true =>
    obtain ⟨hh, rfl⟩ := eq_await_of_step_busy hf ht
    exact ⟨_, stepWith_await hf hh, sameBlock_await s d f⟩
  | false =>
    obtain ⟨hbusy, -⟩ | ⟨-, hh, rfl⟩ | ⟨-, ⟨rest, hh⟩, rfl⟩ | ⟨-, cw, rest, hh, -⟩ := stepWith_cases ht
    · exact absurd (hf.symm.trans hbusy) nofun
    · exact ⟨_, stepWith_idle hf hh, d, f, rfl⟩
    · exact ⟨_, stepWith_reset hf hh, d, f, rfl⟩
    · rw [stepWith_command hf hh] at ht
      obtain ⟨t', ht', hsame⟩ := sameBlock_runWord d f ht
      exact ⟨t', (stepWith_command (s := s.withArm d f) hf hh).trans ht', hsame⟩

end

/-- Settles O26: every operation behind the step writes the device image and its record and none reads them. -/
theorem deviceImageIsNeverRead : Obligations.DeviceImageIsNeverRead := by
  intro s t d f ht
  obtain ⟨t', ht', hsame⟩ := sameBlock_stepWith d f ht
  exact ⟨t', ht', hsame.eq⟩

end Sys2Proof.Machine

namespace Sys2Proof

/-! ## The buffer as registers and as cells (20_memory.md R41) -/

theorem Buffer.read_write (b : Buffer) (i j : ByteIndex) (v : Byte) :
    (b.write i v).read j = if j = i then v else b.read j := by
  split_ifs with h
  · rw [h, Buffer.read_write_same]
  · exact Buffer.read_write_other b i j v h

/-- An address is that of a location, or lies outside the buffer. -/
theorem ByteIndex.toNat_cases (a : Nat) : (∃ j : ByteIndex, a = j.toNat) ∨ 3 ≤ a :=
  match a with
  | 0 => .inl ⟨.byte0, rfl⟩
  | 1 => .inl ⟨.byte1, rfl⟩
  | 2 => .inl ⟨.byte2, rfl⟩
  | _ + 3 => .inr (Nat.le_add_left 3 _)

/-- A cell other than the one written reads as before, in the buffer or outside it. -/
theorem Buffer.read_cells_write_other (b : Buffer) (i : ByteIndex) (v : Byte) {a : Nat} (h : a ≠ i.toNat) :
    Memory.read (b.write i v).cells a = Memory.read b.cells a := by
  obtain ⟨j, rfl⟩ | hout := ByteIndex.toNat_cases a
  · rw [Buffer.read_cells, Buffer.read_cells, Buffer.read_write_other _ _ _ _ fun hji => h (congrArg ByteIndex.toNat hji)]
  · rw [Buffer.read_cells_outside _ _ hout, Buffer.read_cells_outside _ _ hout]

/-- Settles O57: the cells read as the registers do, and a write changes one register. -/
theorem bufferAccesses : Obligations.BufferAccesses :=
  ⟨Buffer.read_write, fun _ => rfl, fun b i v _ => b.read_cells_write_other i v,
    fun b i v => (Buffer.read_cells _ i).trans (b.read_write_same i v)⟩

end Sys2Proof

end

/-! PROOFS. Every write as a clear-then-set in each byte (spec 00_scope.md R8, 40_field_operations.md R68): what a command leaves alone,
which commands commute, what a repetition does (20_memory.md R39), and why no answer reaches the buffer (60_exceptions.md R95). -/

section

namespace Sys2Proof

/-! ## The mask operators (00_scope.md R8) -/

/-- Nothing lies inside the empty mask. -/
theorem and_not_zero (x : Byte) : x &&& ~~~0#8 = x := BitVec.and_allOnes

theorem clearThenSet_zero_clear (vm x : Byte) : clearThenSet 0#8 vm x = setBits vm x := by
  rw [clearThenSet, clearBits, and_not_zero]

theorem clearThenSet_zero_zero (x : Byte) : clearThenSet 0#8 0#8 x = x := by
  rw [clearThenSet_zero_clear, setBits, BitVec.or_zero]

theorem clearThenSet_full_zero (x : Byte) : clearThenSet 0xFF#8 0#8 x = 0#8 :=
  (clearThenSet_zero 0xFF#8 x).trans BitVec.and_zero

theorem clearThenSet_outside (sm vm x : Byte) : clearThenSet sm vm x &&& ~~~(sm ||| vm) = x &&& ~~~(sm ||| vm) := by
  ext k hk
  simp only [clearThenSet, setBits, clearBits, BitVec.getElem_or, BitVec.getElem_and, BitVec.getElem_not]
  cases vm[k] <;> cases sm[k] <;> simp

/-- Writes under masks that do not meet commute. -/
theorem clearThenSet_comm {sm vm sm' vm' : Byte} (h : (sm ||| vm) &&& (sm' ||| vm') = 0#8) (x : Byte) :
    clearThenSet sm vm (clearThenSet sm' vm' x) = clearThenSet sm' vm' (clearThenSet sm vm x) := by
  ext k hk
  have hk' : ((sm[k] || vm[k]) && (sm'[k] || vm'[k])) = false := by simpa using congrArg (·[k]) h
  simp only [clearThenSet, setBits, clearBits, BitVec.getElem_or, BitVec.getElem_and, BitVec.getElem_not]
  revert hk'
  cases vm[k] <;> cases sm[k] <;> cases vm'[k] <;> cases sm'[k] <;> simp

/-- A mask that lies inside another adds nothing to it. -/
theorem or_eq_left_of_inside {sm v : Byte} (h : v &&& ~~~sm = 0#8) : sm ||| v = sm := by
  ext k hk
  have hk' : (v[k] && !sm[k]) = false := by simpa using congrArg (·[k]) h
  rw [BitVec.getElem_or]
  revert hk'
  cases v[k] <;> cases sm[k] <;> simp

/-- Bytes equal outside a mask have equal bits where the mask has none. -/
theorem getLsbD_eq_of_outside {m x y : Byte} (h : x &&& ~~~m = y &&& ~~~m) {k : Nat} (hk : m.getLsbD k = false) :
    x.getLsbD k = y.getLsbD k := by
  by_cases hlt : k < 8
  · have hbit (z : Byte) : (z &&& ~~~m).getLsbD k = z.getLsbD k := by
      rw [BitVec.getLsbD_and, BitVec.getLsbD_not, hk]; simp [hlt]
    rw [← hbit x, h, hbit y]
  · rw [BitVec.getLsbD_of_ge x k (Nat.le_of_not_lt hlt), BitVec.getLsbD_of_ge y k (Nat.le_of_not_lt hlt)]

/-- A byte with fewer bits sets none. -/
theorem and_not_of_sub {x y : Byte} (h : y &&& x = y) : y &&& ~~~x = 0#8 := by
  rw [← h, BitVec.and_assoc]; simp

/-! ## A write of the buffer as a clear-then-set in each byte -/

/-- In each byte `m` clears, then sets, and the two masks together are the byte's part of `k`. -/
def ClearsThenSets (m : Buffer → Buffer) (k : Buffer) : Prop :=
  ∃ sm vm : Buffer, (∀ b j, (m b).read j = clearThenSet (sm.read j) (vm.read j) (b.read j)) ∧
    ∀ j, sm.read j ||| vm.read j = k.read j

section
variable {m m' : Buffer → Buffer} {k k' : Buffer}

theorem ClearsThenSets.outside (h : ClearsThenSets m k) (b : Buffer) (j : ByteIndex) :
    (m b).read j &&& ~~~(k.read j) = b.read j &&& ~~~(k.read j) := by
  obtain ⟨sm, vm, hm, hk⟩ := h
  rw [hm, ← hk, clearThenSet_outside]

theorem ClearsThenSets.idem (h : ClearsThenSets m k) (b : Buffer) : m (m b) = m b := by
  obtain ⟨sm, vm, hm, -⟩ := h
  exact Buffer.ext_read fun j => by rw [hm, hm, clearThenSet_idem]

theorem ClearsThenSets.comm (h : ClearsThenSets m k) (h' : ClearsThenSets m' k')
    (hdisjoint : ∀ j, k.read j &&& k'.read j = 0#8) (b : Buffer) : m (m' b) = m' (m b) := by
  obtain ⟨sm, vm, hm, hk⟩ := h
  obtain ⟨sm', vm', hm', hk'⟩ := h'
  refine Buffer.ext_read fun j => ?_
  rw [hm, hm', hm', hm]
  exact clearThenSet_comm (by rw [hk, hk']; exact hdisjoint j) _

end

theorem clearsThenSets_id : ClearsThenSets id Buffer.zero :=
  ⟨Buffer.zero, Buffer.zero, fun b j => by rw [Buffer.read_zero, clearThenSet_zero_zero, id],
    fun j => by rw [Buffer.read_zero, BitVec.or_zero]⟩

/-- A clear-then-set of one byte touches its masks there and nothing in the other bytes. -/
theorem clearsThenSets_write (i : ByteIndex) {sm vm k : Byte} (hk : sm ||| vm = k) :
    ClearsThenSets (fun b => b.write i (clearThenSet sm vm (b.read i))) (Buffer.zero.write i k) := by
  refine ⟨Buffer.zero.write i sm, Buffer.zero.write i vm, fun b j => ?_, fun j => ?_⟩
  · by_cases hj : j = i
    · subst hj; simp only [Buffer.read_write_same]
    · simp only [Buffer.read_write_other _ _ _ _ hj, Buffer.read_zero, clearThenSet_zero_zero]
  · by_cases hj : j = i
    · subst hj; simp only [Buffer.read_write_same, hk]
    · simp only [Buffer.read_write_other _ _ _ _ hj, Buffer.read_zero]; rfl

theorem clearsThenSets_raw (bi : BitVec 2) {f : Byte → Byte} {sm vm k : Byte} (hf : ∀ x, f x = clearThenSet sm vm x)
    (hk : sm ||| vm = k) : ClearsThenSets (Instr.mutate.raw bi f) (Instr.footprint.rawFootprint bi k) := by
  obtain rfl : f = clearThenSet sm vm := funext hf
  unfold Instr.mutate.raw Instr.footprint.rawFootprint
  cases ByteIndex.ofBits bi with
  | none => exact clearsThenSets_id
  | some j => exact clearsThenSets_write j hk

theorem clearsThenSets_onField {p : Segment} {v : Byte} (hv : isFieldValue p v = true) :
    ClearsThenSets (Instr.mutate.onField p v) (Instr.footprint.segFootprint p) :=
  clearsThenSets_write (descriptor p).bi (or_eq_left_of_inside (isFieldValue_inside hv))

theorem clearsThenSets_stopAll : ClearsThenSets (fun _ => Buffer.zero) ⟨0xFF, 0xFF, 0xFF⟩ := by
  refine ⟨⟨0xFF, 0xFF, 0xFF⟩, Buffer.zero, fun b j => ?_, fun j => ?_⟩
  · cases j <;> exact (clearThenSet_full_zero _).symm
  · cases j <;> rfl

/-- The masks of every command's write are its footprint (R68). -/
theorem Instr.clearsThenSets (i : Instr) : ClearsThenSets i.mutate i.footprint := by
  cases i with
  | clrf bi sm => exact clearsThenSets_raw bi (fun x => (clearThenSet_zero sm x).symm) BitVec.or_zero
  | setf bi vm => exact clearsThenSets_raw bi (fun x => (clearThenSet_zero_clear vm x).symm) BitVec.zero_or
  | apply bi sm vm => exact clearsThenSets_raw bi (fun _ => rfl) rfl
  | stopf bi sm => exact clearsThenSets_raw bi (fun x => (clearThenSet_zero sm x).symm) BitVec.or_zero
  | stopAll => exact clearsThenSets_stopAll
  | _ => exact clearsThenSets_onField (by decide)

theorem Instr.mutate_idem (i : Instr) (b : Buffer) : i.mutate (i.mutate b) = i.mutate b := i.clearsThenSets.idem b

/-- An ill-formed command has no byte to write. -/
theorem Instr.mutate_of_ill_formed {i : Instr} (hw : i.wf = false) (b : Buffer) : i.mutate b = b := by
  have hraw {bi : BitVec 2} (hbi : biLegal bi = false) (f : Byte → Byte) : Instr.mutate.raw bi f b = b := by
    have hnone : ByteIndex.ofBits bi = none :=
      Option.isNone_iff_eq_none.mp (by rw [← Option.not_isSome, ByteIndex.ofBits_isSome, hbi]; rfl)
    simp only [Instr.mutate.raw, hnone]
  cases i with
  | clrf bi sm => exact hraw hw _
  | setf bi vm => exact hraw hw _
  | apply bi sm vm => exact hraw hw _
  | stopf bi sm => exact hraw hw _
  | _ => exact absurd hw (by decide)

/-- NOPSEND clears nothing. -/
theorem mutate_nopSend (b : Buffer) : Asm.nopSend.mutate b = b :=
  (congrArg (b.write .byte0) (and_not_zero _)).trans (b.write_read_same .byte0)

/-! ## Footprints (R68) -/

theorem footprint_of_namedInstr {act : Action} {seg : Segment} {i : Instr} (hi : namedInstr act seg = some i) :
    i.footprint = Buffer.zero.write (descriptor seg).bi (descriptor seg).sm := by
  cases act <;> cases seg <;> cases hi <;> rfl

/-- The footprint of a raw operation lies in the byte its `BI` names, if it names one. -/
theorem rawFootprint_read (bi : BitVec 2) (k : Byte) (j : ByteIndex) :
    (Instr.footprint.rawFootprint bi k).read j = if ByteIndex.ofBits bi = some j then k else 0#8 := by
  unfold Instr.footprint.rawFootprint
  cases ByteIndex.ofBits bi with
  | none => simp
  | some i => simp [Buffer.read_write, eq_comm]

end Sys2Proof

namespace Sys2Proof.Machine

/-! ## The buffer after a command -/

section
variable {i : Instr} {s t : State}

/-- Run or not, a command leaves the buffer as it was or its mutation of it. -/
theorem exec_buf_eq (ht : exec i s = .next t) : t.buf = s.buf ∨ t.buf = i.mutate s.buf := by
  obtain ⟨-, hb⟩ | ⟨-, -, hb⟩ | ⟨-, -, hb⟩ := exec_buf ht
  · exact .inl hb
  · exact .inl hb
  · exact .inr hb

/-- In a ready state it leaves its mutation, which for an ill-formed command is the buffer itself. -/
theorem exec_ready_mutate (hr : Ready s) (ht : exec i s = .next t) : t.buf = i.mutate s.buf := by
  obtain ⟨hbusy, -⟩ | ⟨-, hw, hb⟩ | ⟨-, -, hb⟩ := exec_buf ht
  · exact absurd (hr.2.symm.trans hbusy) nofun
  · rw [hb, Instr.mutate_of_ill_formed hw]
  · exact hb

theorem exec_keeps_ready (hr : Ready s) (ha : Answering s) (ht : exec i s = .next t) : Ready t := by
  cases hw : i.wf with
  | true =>
    obtain ⟨u, -, hu, -, -, hready, -⟩ := exec_answering hw hr ha
    obtain rfl := Host.Outcome.next.inj (hu.symm.trans ht)
    exact hready
  | false =>
    obtain ⟨u, hu, hill⟩ := exec_illegalled hw hr
    obtain rfl := Host.Outcome.next.inj (hu.symm.trans ht)
    rw [hill]; exact hr

/-- No command changes a bit outside its footprint (R68). -/
theorem exec_outside_footprint (ht : exec i s = .next t) (j : ByteIndex) :
    t.buf.read j &&& ~~~(i.footprint.read j) = s.buf.read j &&& ~~~(i.footprint.read j) := by
  obtain hb | hb := exec_buf_eq ht
  · rw [hb]
  · rw [hb, i.clearsThenSets.outside]

/-- A byte where the footprint is empty stays. -/
theorem exec_read_of_footprint_zero (ht : exec i s = .next t) {j : ByteIndex} (hj : i.footprint.read j = 0#8) :
    t.buf.read j = s.buf.read j := by
  have hout := exec_outside_footprint ht j
  rwa [hj, and_not_zero, and_not_zero] at hout

end

/-! ## Frames (R68) -/

/-- Commands with disjoint footprints leave one buffer in either order. -/
theorem exec_comm {i i' : Instr} {s t u t' u' : State} (hr : Ready s) (ha : Answering s)
    (hdisjoint : ∀ j, i.footprint.read j &&& i'.footprint.read j = 0#8) (ht : exec i s = .next t) (hu : exec i' t = .next u)
    (ht' : exec i' s = .next t') (hu' : exec i t' = .next u') : u.buf = u'.buf := by
  rw [exec_ready_mutate (exec_keeps_ready hr ha ht) hu, exec_ready_mutate hr ht,
    exec_ready_mutate (exec_keeps_ready hr ha ht') hu', exec_ready_mutate hr ht']
  exact (i.clearsThenSets.comm i'.clearsThenSets hdisjoint s.buf).symm

/-- Settles O33: the masks of a command's write are its footprint; clear-then-sets under disjoint masks commute. -/
theorem fieldIsolation : Obligations.FieldIsolation :=
  ⟨fun _ _ _ => exec_outside_footprint, fun _ _ _ _ _ _ _ => exec_comm, fun _ _ _ => footprint_of_namedInstr,
    descriptor_disjoint⟩

/-- The frame of one raw operation whose footprint is some bits of `m` in the byte that `bi` names. -/
theorem exec_raw_frame {i : Instr} {bi : BitVec 2} {k m : Byte} {s t : State}
    (hi : i.footprint = Instr.footprint.rawFootprint bi k) (hk : ∀ n, m.getLsbD n = false → k.getLsbD n = false)
    (ht : exec i s = .next t) :
    (∀ j, ByteIndex.ofBits bi ≠ some j → t.buf.read j = s.buf.read j) ∧
    (∀ j n, ByteIndex.ofBits bi = some j → m.getLsbD n = false → (t.buf.read j).getLsbD n = (s.buf.read j).getLsbD n) ∧
    RestKept s t := by
  refine ⟨fun j hj => exec_read_of_footprint_zero ht ?_, fun j n hj hn => ?_, commandsKeepTheRest i s t ht⟩
  · rw [hi, rawFootprint_read, if_neg hj]
  · have hout := exec_outside_footprint ht j
    rw [hi, rawFootprint_read, if_pos hj] at hout
    exact getLsbD_eq_of_outside hout (hk n hn)

/-- Settles O32: the footprint of a raw operation is its masks, in the byte named; the records are those of every command. -/
theorem rawOperationsFrame : Obligations.RawOperationsFrame := by
  intro bi sm vm s t h
  have hbits (n : Nat) (hn : (sm ||| vm).getLsbD n = false) : sm.getLsbD n = false ∧ vm.getLsbD n = false := by
    simpa only [BitVec.getLsbD_or, Bool.or_eq_false_iff] using hn
  obtain ht | ht | ht | ht := h
  · exact exec_raw_frame rfl (fun n hn => (hbits n hn).1) ht
  · exact exec_raw_frame rfl (fun n hn => (hbits n hn).2) ht
  · exact exec_raw_frame rfl (fun n hn => hn) ht
  · exact exec_raw_frame rfl (fun n hn => (hbits n hn).1) ht

/-- Settles O42: the footprint of a named command is its segment's stop mask in its segment's byte. -/
theorem namedCommandsFrame : Obligations.NamedCommandsFrame := by
  intro act seg i s t hi ht
  have hfoot := footprint_of_namedInstr hi
  refine ⟨fun j hj => exec_read_of_footprint_zero ht ?_, fun k hk => ?_, commandsKeepTheRest i s t ht⟩
  · rw [hfoot, Buffer.read_write_other _ _ _ _ hj, Buffer.read_zero]
  · have hout := exec_outside_footprint ht (descriptor seg).bi
    rw [hfoot, Buffer.read_write_same] at hout
    exact getLsbD_eq_of_outside hout hk

/-- Settles O41: LED_OFF is a clear in byte 2; its word with value B names no command. -/
theorem ledOffSetsNothing : Obligations.LedOffSetsNothing := by
  refine ⟨fun s t ht j => and_not_of_sub ?_, fun _ => refusedWord_of_decode_error (e := .ledValueB) rfl⟩
  obtain hb | hb := exec_buf_eq ht
  · rw [hb, BitVec.and_self]
  · have hclear : Instr.ledOff.mutate s.buf = s.buf.write .byte2 (clearBits 0x01 (s.buf.read .byte2)) :=
      congrArg (s.buf.write .byte2) (clearThenSet_zero 0x01 _)
    rw [hb, hclear, Buffer.read_write]
    split_ifs with hj
    · rw [hj, clearBits_and_self]
    · exact BitVec.and_self

/-! ## Repetition, and what a command does not look at -/

/-- Settles O45: each run is one answered frame, and the write is idempotent. -/
theorem repeatedCommandsSendAgain : Obligations.RepeatedCommandsSendAgain := by
  intro i s hw hr ha
  obtain ⟨t, a, ht, htbuf, htlog, htr, hta⟩ := exec_answering hw hr ha
  obtain ⟨u, b, hu, hubuf, hulog, -⟩ := exec_answering hw htr hta
  have hsame : u.buf = t.buf := by rw [hubuf, htbuf, i.mutate_idem]
  exact ⟨t, u, a, b, ht, hu, hsame, by rw [hulog, htlog, hsame, List.append_assoc, List.singleton_append]⟩

/-- Settles O23: the failed command leaves a ready block; a command whose write changes nothing, answered `ok`, shows the arm the
buffer. -/
theorem blockLivesOnAfterTransportError : Obligations.BlockLivesOnAfterTransportError := by
  intro i s t hw hr herr ht
  obtain ⟨hbuf, hdone⟩ := exec_completed hw hr herr ht
  have hready : Ready t := ⟨hdone.attached.trans hr.1, hdone.done⟩
  refine ⟨hready, fun j => exec_attached j hready.1, fun hok j hj => ?_⟩
  have hj' : j.wf = true ∧ j.mutate t.buf = t.buf := by
    obtain rfl | rfl := List.mem_pair.mp hj
    · exact ⟨rfl, mutate_nopSend t.buf⟩
    · exact ⟨hw, by rw [hbuf, j.mutate_idem]⟩
  obtain ⟨u, hu⟩ := exec_attached j hready.1
  obtain ⟨hubuf, hudone⟩ := exec_completed hj'.1 hready hok hu
  have hsame : u.buf = t.buf := hubuf.trans hj'.2
  exact ⟨u, hu, hsame, hsame ▸ hudone.devOk rfl, State.rspStatus_of_rsp hudone.rsp⟩

/-- Settles O24: the mutation is a function of the buffer alone. -/
theorem answersNeverReachTheBuffer : Obligations.AnswersNeverReachTheBuffer := by
  intro i s s' hr hr' hbuf
  obtain ⟨t, ht⟩ := exec_attached i hr.1
  obtain ⟨t', ht'⟩ := exec_attached i hr'.1
  exact ⟨t, t', ht, ht', by rw [exec_ready_mutate hr ht, exec_ready_mutate hr' ht', hbuf]⟩

/-! ## Whole runs with a transport that answers (60_exceptions.md section 3) -/

/-- The buffer after a step of a ready block whose frames are answered: a function of the buffer and the host's next act. -/
def bufAfterAct (admitRaw : Bool) : List HostAct → Buffer → Buffer
  | [], b => b
  | .command cw :: _, b =>
    match decode admitRaw cw with
    | .ok i => i.mutate b
    | .error _ => b
  | .reset :: _, _ => Config.resetValue
  | .resetNow :: _, _ => Config.resetValue

/-- A ready block whose transport answers takes the host's next act and is ready for the one after it. -/
structure TookAct (admitRaw : Bool) (s t : State) : Prop where
  ready : Ready t
  answering : Answering t
  buf : t.buf = bufAfterAct admitRaw s.host s.buf
  host : t.host = s.host.tail

section
variable {admitRaw : Bool} {s : State}

theorem tookAct_command {cw : CmdWord} {rest : List HostAct} (hr : Ready s) (ha : Answering s)
    (hh : s.host = .command cw :: rest) : ∃ t, stepWith admitRaw s = .next t ∧ TookAct admitRaw s t := by
  have hr' : Ready { s with host := rest } := hr
  have ha' : Answering { s with host := rest } := ha
  rw [stepWith_command hr.2 hh]
  cases hd : decode admitRaw cw with
  | ok i =>
    obtain ⟨t, ht⟩ := exec_attached i hr'.1
    refine ⟨t, (runWord_ok hd _).trans ht, exec_keeps_ready hr' ha' ht, exec_keeps_answering ht ha', ?_, ?_⟩
    · rw [exec_ready_mutate hr' ht, hh]; simp only [bufAfterAct, hd]
    · rw [(commandsKeepTheRest _ _ _ ht).host, hh]; rfl
  | error e =>
    refine ⟨_, (runWord_error hd _).trans (illegalCommand_ready hr'), hr', ha', ?_, ?_⟩
    · rw [hh]; simp only [bufAfterAct, hd]; rfl
    · rw [hh]; rfl

theorem tookAct_step (admitRaw : Bool) (hr : Ready s) (ha : Answering s) :
    ∃ t, stepWith admitRaw s = .next t ∧ TookAct admitRaw s t := by
  cases hh : s.host with
  | nil => exact ⟨_, stepWith_idle hr.2 hh, hr, ha, by rw [hh]; rfl, by rw [State.idle_host, hh]; rfl⟩
  | cons act rest =>
    cases act with
    | command cw => exact tookAct_command hr ha hh
    | reset => exact ⟨_, stepWith_reset hr.2 (.inl hh), ⟨hr.1, rfl⟩, ha, by rw [hh]; rfl, rfl⟩
    | resetNow => exact ⟨_, stepWith_reset hr.2 (.inr hh), ⟨hr.1, rfl⟩, ha, by rw [hh]; rfl, rfl⟩

end

/-- Settles O25: a step of a ready block whose frames are answered makes of buffer and acts what the two alone decide; induction
over the number of steps. -/
theorem runsAgreeWhateverIsAnswered : Obligations.RunsAgreeWhateverIsAnswered := by
  intro admitRaw k
  induction k with
  | zero => exact fun s s' hr hr' _ _ hbuf hhost => ⟨s, s', rfl, rfl, hbuf, hhost, hr, hr'⟩
  | succ k ih =>
    intro s s' hr hr' ha ha' hbuf hhost
    obtain ⟨t, ht, htook⟩ := tookAct_step admitRaw hr ha
    obtain ⟨t', ht', htook'⟩ := tookAct_step admitRaw hr' ha'
    rw [runWith_succ_of_step ht, runWith_succ_of_step ht']
    exact ih t t' htook.ready htook'.ready htook.answering htook'.answering
      (by rw [htook.buf, htook'.buf, hbuf, hhost]) (by rw [htook.host, htook'.host, hhost])

end Sys2Proof.Machine

end

/-! PROOFS. The fields of the buffer (spec 10_state.md R16, R19, R20): the state machine of a field, several segments at once
(41_segment_commands.md R86), every buffer with INV from reset (70_reset_and_hazards.md R122), the arm kept safe by the named
commands (30_encoding.md R61, 93 U1). -/

section

namespace Sys2Proof

/-! ## The state of a field and its bits (R16) -/

/-- The state an action puts its field in (R19). -/
def Action.target : Action → FieldState
  | .stop => .stopped
  | .valueA => .directionA
  | .valueB => .directionB

/-- The state of a field whose bits are `x`. -/
def stateOfBits (p : Segment) (x : Byte) : FieldState :=
  if x = 0#8 then .stopped
  else if x = (descriptor p).va then .directionA
  else if some x = (descriptor p).vb then .directionB
  else .invalid

theorem fieldState_eq_stateOfBits (b : Buffer) (p : Segment) : fieldState b p = stateOfBits p (fieldBits b p) := rfl

/-- Each value of a field is the one encoding of its state. -/
theorem stateOfBits_eq_target_iff {act : Action} {p : Segment} {v : Byte} (hv : act.value p = some v) (x : Byte) :
    stateOfBits p x = act.target ↔ x = v := by
  revert x
  cases act <;> cases p <;> cases hv <;> decide

theorem fieldState_eq_target_iff {act : Action} {p : Segment} {v : Byte} (hv : act.value p = some v) (b : Buffer) :
    fieldState b p = act.target ↔ fieldBits b p = v :=
  stateOfBits_eq_target_iff hv (fieldBits b p)

/-! ## A write to a field that has, or has not, its value already -/

/-- Bits that are there already are not changed by clearing the mask and setting them again. -/
theorem clearThenSet_of_and_eq {sm v x : Byte} (h : x &&& sm = v) : clearThenSet sm v x = x := by
  subst h
  ext k hk
  simp only [clearThenSet, setBits, clearBits, BitVec.getElem_or, BitVec.getElem_and, BitVec.getElem_not]
  cases x[k] <;> cases sm[k] <;> rfl

theorem onField_of_fieldBits_eq {p : Segment} {v : Byte} {b : Buffer} (h : fieldBits b p = v) :
    Instr.mutate.onField p v b = b := by
  rw [Instr.mutate.onField, clearThenSet_of_and_eq h, Buffer.write_read_same]

/-- In a field that is neutral there is nothing to clear. -/
theorem clearThenSet_of_and_eq_zero {sm x : Byte} (h : x &&& sm = 0#8) (v : Byte) : clearThenSet sm v x = x ||| v := by
  ext k hk
  have hk' : (x[k] && sm[k]) = false := by simpa using congrArg (·[k]) h
  simp only [clearThenSet, setBits, clearBits, BitVec.getElem_or, BitVec.getElem_and, BitVec.getElem_not]
  revert hk'
  cases x[k] <;> cases sm[k] <;> simp

theorem onField_of_fieldBits_zero {p : Segment} {b : Buffer} (h : fieldBits b p = 0#8) (v : Byte) :
    Instr.mutate.onField p v b = b.write (descriptor p).bi (b.read (descriptor p).bi ||| v) := by
  rw [Instr.mutate.onField, clearThenSet_of_and_eq_zero h]

end Sys2Proof

namespace Sys2Proof.Machine

/-! ## The state machine of a field (R19) -/

/-- A named command in a ready state, through its field: the value of its action there, every other field as it was, and the buffer
as it was if the value was there already. -/
theorem exec_named_fields {act : Action} {p : Segment} {i : Instr} {s t : State} (hr : Ready s)
    (hi : namedInstr act p = some i) (ht : exec i s = .next t) :
    fieldState t.buf p = act.target ∧ (∀ q, q ≠ p → fieldState t.buf q = fieldState s.buf q) ∧
      (fieldState s.buf p = fieldState t.buf p → t.buf = s.buf) := by
  obtain ⟨v, hv, hval⟩ := value_of_namedInstr hi
  have hb : t.buf = Instr.mutate.onField p v s.buf := by rw [exec_ready_mutate hr ht, mutate_of_namedInstr hi hv]
  have htarget : fieldState t.buf p = act.target := by
    rw [fieldState_eq_target_iff hv, hb, fieldBits_onField_same hval]
  refine ⟨htarget, fun q hq => ?_, fun hsame => ?_⟩
  · rw [fieldState_eq_stateOfBits, fieldState_eq_stateOfBits, exec_named_keeps_other_field hi hq.symm ht]
  · have hbits : fieldBits s.buf p = v := (fieldState_eq_target_iff hv s.buf).mp (hsame.trans htarget)
    rw [hb, onField_of_fieldBits_eq hbits]

/-- Settles O43: the action's value is the one encoding of the state it leads to, and it lies in the field; STOPALL's buffer is
zero. -/
theorem fieldStateMachine : Obligations.FieldStateMachine := by
  refine fun s t hr => ⟨fun act seg i hi ht => ?_, fun ht seg => ?_⟩
  · obtain ⟨htarget, hrest⟩ := exec_named_fields hr hi ht
    exact ⟨by rw [htarget]; cases act <;> rfl, hrest⟩
  · rw [exec_ready_mutate hr ht]; exact fieldState_zero seg

/-! ## Several segments at once (41_segment_commands.md R86) -/

/-- The bits a direction puts into its segment's field. -/
def moveValue (p : Action × Segment) : Byte :=
  if p.1 = .valueA then (descriptor p.2).va else (descriptor p.2).vb.getD 0x00

theorem value_of_move {act : Action} {seg : Segment} {i : Instr} (hact : act ≠ .stop) (hi : namedInstr act seg = some i) :
    act.value seg = some (moveValue (act, seg)) := by
  cases act with
  | stop => exact absurd rfl hact
  | valueA => rfl
  | valueB => cases seg <;> cases hi <;> rfl

/-- Directions on different segments whose fields are neutral, all in byte 0, together set the OR of their values. -/
theorem foldl_mutate_moves : ∀ {l : List (Action × Segment)} {is : List Instr} (b : Buffer),
    l.map (fun p => namedInstr p.1 p.2) = is.map some → (∀ p ∈ l, p.1 ≠ .stop) → (l.map Prod.snd).Nodup →
    (∀ p ∈ l, (descriptor p.2).bi = .byte0) → (∀ p ∈ l, fieldBits b p.2 = 0#8) →
    is.foldl (fun b i => i.mutate b) b = ⟨b.b0 ||| (l.map moveValue).foldr (fun x y => x ||| y) 0x00, b.b1, b.b2⟩
  | [], [], b, _, _, _, _, _ => by simp
  | p :: l, i :: is, b, hmap, hstop, hnodup, hbyte, hzero => by
    obtain ⟨hi, hmap'⟩ := List.cons.inj hmap
    obtain ⟨hp, hstop'⟩ := List.forall_mem_cons.mp hstop
    obtain ⟨hnew, hnodup'⟩ := List.nodup_cons.mp hnodup
    obtain ⟨hbi, hbyte'⟩ := List.forall_mem_cons.mp hbyte
    obtain ⟨hneutral, hzero'⟩ := List.forall_mem_cons.mp hzero
    have hmutate : i.mutate = Instr.mutate.onField p.2 (moveValue p) := mutate_of_namedInstr hi (value_of_move hp hi)
    obtain ⟨v, hv, hval⟩ := value_of_namedInstr hi
    obtain rfl : moveValue p = v := Option.some.inj ((value_of_move hp hi).symm.trans hv)
    have hrest : ∀ q ∈ l, fieldBits (i.mutate b) q.2 = 0#8 := fun q hq => by
      have hne : p.2 ≠ q.2 := fun heq => hnew (heq ▸ List.mem_map_of_mem hq)
      rw [hmutate, fieldBits_onField_other hval hne, hzero' q hq]
    have hset : i.mutate b = ⟨b.b0 ||| moveValue p, b.b1, b.b2⟩ := by
      rw [hmutate, onField_of_fieldBits_zero hneutral, hbi]; rfl
    rw [List.foldl_cons, foldl_mutate_moves (i.mutate b) hmap' hstop' hnodup' hbyte' hrest, hset, List.map_cons,
      List.foldr_cons, BitVec.or_assoc]

theorem wf_of_named_list {l : List (Action × Segment)} {is : List Instr}
    (hmap : l.map (fun p => namedInstr p.1 p.2) = is.map some) {i : Instr} (hi : i ∈ is) : i.wf = true := by
  have hsome : some i ∈ l.map (fun p => namedInstr p.1 p.2) := hmap ▸ List.mem_map_of_mem hi
  obtain ⟨p, -, hp⟩ := List.mem_map.mp hsome
  exact wf_of_namedInstr hp

/-- Settles O46: the commands run one after the other, and each finds its own field neutral; induction over the list. -/
theorem simultaneousMotion : Obligations.SimultaneousMotion := by
  intro l is s hmap hstop hnodup hbyte hr ha hbuf
  obtain ⟨t, ht, htbuf, htlog⟩ := execAll_answering (fun _ => wf_of_named_list hmap) hr ha
  have hzero : ∀ p ∈ l, fieldBits s.buf p.2 = 0#8 := fun p _ => by
    rw [show s.buf = Buffer.zero from hbuf, fieldBits, Buffer.read_zero, BitVec.zero_and]
  refine ⟨t, ht, htlog, ?_⟩
  rw [htbuf, foldl_mutate_moves s.buf hmap hstop hnodup hbyte hzero, hbuf]
  exact congrArg (Buffer.mk · 0x00 0x00) BitVec.zero_or

end Sys2Proof.Machine

namespace Sys2Proof

/-! ## A buffer is its fields and its unallocated bits (R15, R18) -/

theorem eq_on_or {x y m m' : Byte} (h : x &&& m = y &&& m) (h' : x &&& m' = y &&& m') :
    x &&& (m ||| m') = y &&& (m ||| m') := by
  rw [BitVec.and_or_distrib_left, BitVec.and_or_distrib_left, h, h']

/-- The stop masks of a byte's fields and the mask of its unallocated bits cover it. -/
theorem Buffer.ext_fields {b c : Buffer} (hfields : ∀ p, fieldBits b p = fieldBits c p)
    (hspare : ∀ i, b.read i &&& spareMask i = c.read i &&& spareMask i) : b = c := by
  refine Buffer.ext_read fun i => ?_
  have hall (m : Byte) (hm : m = BitVec.allOnes 8) (h : b.read i &&& m = c.read i &&& m) : b.read i = c.read i := by
    subst hm; rwa [BitVec.and_allOnes, BitVec.and_allOnes] at h
  cases i with
  | byte0 =>
    exact hall (((0x03 ||| 0x0C) ||| 0x30) ||| 0xC0) rfl
      (eq_on_or (eq_on_or (eq_on_or (hfields .hand) (hfields .wrist)) (hfields .elbow)) (hfields .shoulder))
  | byte1 => exact hall (0x03 ||| 0xFC) rfl (eq_on_or (hfields .base) (hspare .byte1))
  | byte2 => exact hall (0x01 ||| 0xFE) rfl (eq_on_or (hfields .led) (hspare .byte2))

/-! ## Every buffer with INV is six values (70_reset_and_hazards.md R122) -/

/-- Every value of a field is what some named command puts there. -/
theorem named_of_isFieldValue {p : Segment} {v : Byte} (hv : isFieldValue p v = true) :
    ∃ act i, namedInstr act p = some i ∧ i.mutate = Instr.mutate.onField p v := by
  have hact : ∃ act i, namedInstr act p = some i ∧ act.value p = some v := by
    simp only [isFieldValue, Bool.or_eq_true, beq_iff_eq] at hv
    obtain (rfl | rfl) | hvb := hv
    · cases p <;> exact ⟨.stop, _, rfl, rfl⟩
    · cases p <;> exact ⟨.valueA, _, rfl, rfl⟩
    · cases p with
      | led => exact absurd hvb nofun
      | _ => exact ⟨.valueB, _, rfl, hvb.symm⟩
  obtain ⟨act, i, hi, hval⟩ := hact
  exact ⟨act, i, hi, mutate_of_namedInstr hi hval⟩

/-- Put the fields of these segments as they are in `b`, one after the other. -/
def copyFields (b : Buffer) (ps : List Segment) (c : Buffer) : Buffer :=
  ps.foldl (fun c p => Instr.mutate.onField p (fieldBits b p) c) c

section
variable {b : Buffer} (hfields : ∀ p, isFieldValue p (fieldBits b p) = true)
include hfields

theorem fieldBits_copyFields (q : Segment) : ∀ (ps : List Segment) (c : Buffer),
    fieldBits (copyFields b ps c) q = if q ∈ ps then fieldBits b q else fieldBits c q
  | [], c => by simp [copyFields]
  | p :: ps, c => by
    have htail := fieldBits_copyFields q ps (Instr.mutate.onField p (fieldBits b p) c)
    rw [copyFields, List.foldl_cons, ← copyFields, htail]
    by_cases hpq : p = q
    · subst hpq; simp [fieldBits_onField_same (hfields p)]
    · rw [fieldBits_onField_other (hfields p) hpq]; simp [List.mem_cons, Ne.symm hpq]

theorem spare_copyFields (i : ByteIndex) : ∀ (ps : List Segment) (c : Buffer),
    (copyFields b ps c).read i &&& spareMask i = c.read i &&& spareMask i
  | [], _ => rfl
  | p :: ps, c => by
    rw [copyFields, List.foldl_cons, ← copyFields, spare_copyFields i ps,
      read_onField_and_of_disjoint (hfields p) c fun hi => hi ▸ descriptor_sm_and_spareMask p]

/-- Each of the writes is a named command's. -/
theorem exists_commands_copyFields : ∀ ps : List Segment, ∃ is : List Instr, is.length = ps.length ∧
    (∀ i ∈ is, ∃ act seg, namedInstr act seg = some i) ∧ ∀ c, is.foldl (fun b i => i.mutate b) c = copyFields b ps c
  | [] => ⟨[], rfl, by simp, fun _ => rfl⟩
  | p :: ps => by
    obtain ⟨is, hlen, hnamed, hfold⟩ := exists_commands_copyFields ps
    obtain ⟨act, i, hi, hmutate⟩ := named_of_isFieldValue (hfields p)
    refine ⟨i :: is, congrArg Nat.succ hlen, List.forall_mem_cons.mpr ⟨⟨act, p, hi⟩, hnamed⟩, fun c => ?_⟩
    rw [List.foldl_cons, hfold, hmutate]; rfl

end

/-- The six fields of a buffer with INV, put into the zero buffer, make that buffer. -/
theorem copyFields_all {b : Buffer} (h : b.inv = true) : copyFields b Segment.all Buffer.zero = b := by
  obtain ⟨hfields, hspare⟩ := b.inv_iff_masks.mp h
  refine Buffer.ext_fields (fun q => ?_) fun i => ?_
  · rw [fieldBits_copyFields hfields, if_pos (Segment.mem_all q)]
  · rw [spare_copyFields hfields, Buffer.read_zero, BitVec.zero_and, hspare]

end Sys2Proof

namespace Sys2Proof.Machine

/-- Settles O49: one named command for each of the six fields, from reset. -/
theorem everyInvBufferIsReached : Obligations.EveryInvBufferIsReached := by
  intro b hinv
  obtain ⟨is, hlen, hnamed, hfold⟩ := exists_commands_copyFields (b.inv_iff_masks.mp hinv).1 Segment.all
  have hwf : ∀ i ∈ is, i.wf = true := fun i hi => by
    obtain ⟨act, seg, hi⟩ := hnamed i hi
    exact wf_of_namedInstr hi
  obtain ⟨t, ht, htbuf, -⟩ := execAll_answering (s := State.reset) hwf ⟨rfl, rfl⟩ nofun
  exact ⟨is, hlen.le, hnamed, t, ht, htbuf.trans ((hfold _).trans (copyFields_all hinv))⟩

/-! ## A safe state for the arm (R20, 93 U1) -/

/-- A buffer with INV has no field that is a fault for the arm. -/
theorem armFaultBy_of_inv {b : Buffer} (h : b.inv = true) (a : Answer) : armFaultBy a b = false := by
  refine Bool.eq_false_iff.mpr fun hfault => ?_
  obtain ⟨-, p, hp⟩ := (armFaultBy_iff a b).mp hfault
  exact (b.inv_iff.mp h).1 p hp

theorem ArmSafe.finish {s : State} (h : ArmSafe s) (a : Answer) : ArmSafe (s.takeSample.finish a) := by
  refine ⟨h.1, ?_⟩
  rw [State.finish_armFault, State.takeSample_armFault, State.takeSample_buf, h.2, armFaultBy_of_inv h.1, Bool.false_or]

theorem ArmSafe.send {s : State} (h : ArmSafe s) : ArmSafe s.send := by
  rcases s.txSample_cases with ⟨a, ha⟩ | hu
  · rw [State.send_answered ha]; exact h.finish a
  · rw [State.send_unanswered hu]; exact h

theorem ArmSafe.await {s : State} (h : ArmSafe s) : ArmSafe s.await := by
  rcases s.txSample_cases with ⟨a, ha⟩ | hu
  · rw [State.await_answered ha]; exact h.finish a
  · rw [State.await_unanswered hu]; exact h

/-- A command other than SETF and APPLY keeps the arm safe: the frame it sends has INV. -/
theorem ArmSafe.exec {i : Instr} {s t : State} (hraw : i.isRaw = false) (h : ArmSafe s) (ht : exec i s = .next t) :
    ArmSafe t := by
  obtain ⟨-, ⟨-, rfl⟩ | ⟨-, -, rfl⟩ | ⟨-, -, rfl⟩⟩ := exec_cases ht
  · exact h
  · exact h
  · have hsetf (bi vm) : i ≠ .setf bi vm := by rintro rfl; exact absurd hraw nofun
    have happly (bi sm vm) : i ≠ .apply bi sm vm := by rintro rfl; exact absurd hraw nofun
    have hmutated : ArmSafe (s.withBuf (i.mutate s.buf)) := ⟨Instr.inv_mutate hsetf happly h.1, h.2⟩
    exact hmutated.send

theorem ArmSafe.stepWith_false {s t : State} (h : ArmSafe s) (ht : stepWith false s = .next t) : ArmSafe t := by
  obtain ⟨-, rfl⟩ | ⟨-, -, rfl⟩ | ⟨-, -, rfl⟩ | ⟨-, cw, rest, -, ⟨e, -, hill⟩ | ⟨i, hd, hex⟩⟩ := stepWith_cases ht
  · exact h.await
  · exact h
  · exact ⟨Buffer.inv_zero, h.2⟩
  · obtain ⟨-, ⟨-, rfl⟩ | ⟨-, rfl⟩⟩ := accept_cases hill
    · exact h
    · exact h
  · have hraw : i.isRaw = false := Bool.eq_false_iff.mpr fun hr => absurd ((encode_of_decode hd).2 hr) nofun
    have hdrop : ArmSafe s.dropAct := h
    exact hdrop.exec hraw hex

/-- Settles O48: without `ADMIT_RAW` only STOPALL and the named commands decode, and they keep INV, so no frame the arm takes has an
invalid field. -/
theorem namedCommandsKeepTheArmSafe : Obligations.NamedCommandsKeepTheArmSafe :=
  ⟨fun _ hop => refusedWord_of_raw_op hop (.inr rfl), fun _ hop => decode_false_of_op_not_raw hop,
    fun _ _ => ArmSafe.stepWith_false⟩

end Sys2Proof.Machine

end
